-- ==== Sys2Proof/Word.lean ====
section
/-! DEFINITION. The word types of the machine (spec/00_scope.md R6, R8): unsigned values only, there are no signed
values anywhere in this instruction set. -/

namespace Sys2Proof

/-- `u8`: a general register, a timer, a memory byte, the immediate `nn` (R6, R8). -/
abbrev Byte := BitVec 8

/-- `u16`: an instruction word, I, PC, a stack entry (R6, R8). -/
abbrev Word := BitVec 16

/-- `u12`: the address field `nnn` and FONT_BASE (R7, R8). -/
abbrev Addr12 := BitVec 12

/-- A 4-bit field of an instruction word (00_scope.md glossary, nibble). -/
abbrev Nibble := BitVec 4

/-- A register number 0..15; VF is register 15 (spec/10_state.md R23, R25). -/
abbrev Reg := Fin 16

/-- VF, the general register that several opcodes also use as the flags register (R24). -/
abbrev vF : Reg := 15

end Sys2Proof
end

