-- ==== Sys2Proof/Syntax.lean ====
section
/-! DEFINITION. The instructions: one constructor per row of spec/opcode_table.json, in the table's order
(spec/30_encoding.md R87). Operand types follow the fields of R81: a register number, a 4-bit count, an 8-bit immediate,
a 12-bit address, each value of which is legal (R85, R89). -/

namespace Sys2Proof

inductive Instr where
  /-- `00E0` CLS (R235) -/
  | cls
  /-- `00EE` RET (R133) -/
  | ret
  /-- `1NNN` JP nnn (R131) -/
  | jp (nnn : Addr12)
  /-- `2NNN` CALL nnn (R132) -/
  | call (nnn : Addr12)
  /-- `3XNN` SE Vx, nn (R134) -/
  | seImm (x : Reg) (nn : Byte)
  /-- `4XNN` SNE Vx, nn (R135) -/
  | sneImm (x : Reg) (nn : Byte)
  /-- `5XY0` SE Vx, Vy (R136) -/
  | seReg (x y : Reg)
  /-- `6XNN` LD Vx, nn (R153) -/
  | ldImm (x : Reg) (nn : Byte)
  /-- `7XNN` ADD Vx, nn (R154) -/
  | addImm (x : Reg) (nn : Byte)
  /-- `8XY0` LD Vx, Vy (R155) -/
  | ldReg (x y : Reg)
  /-- `8XY1` OR Vx, Vy (R158) -/
  | orReg (x y : Reg)
  /-- `8XY2` AND Vx, Vy (R159) -/
  | andReg (x y : Reg)
  /-- `8XY3` XOR Vx, Vy (R160) -/
  | xorReg (x y : Reg)
  /-- `8XY4` ADD Vx, Vy (R161) -/
  | addReg (x y : Reg)
  /-- `8XY5` SUB Vx, Vy (R162) -/
  | sub (x y : Reg)
  /-- `8XY6` SHR Vx, Vy; y is read only under Q.shift_vy, but the word holds it (R165, R97) -/
  | shr (x y : Reg)
  /-- `8XY7` SUBN Vx, Vy (R163) -/
  | subn (x y : Reg)
  /-- `8XYE` SHL Vx, Vy; y as for SHR (R166, R97) -/
  | shl (x y : Reg)
  /-- `9XY0` SNE Vx, Vy (R137) -/
  | sneReg (x y : Reg)
  /-- `ANNN` LD I, nnn (R180) -/
  | ldI (nnn : Addr12)
  /-- `BNNN` JP V0, nnn, or JP Vx, nnn with x = nnn[11:8] under Q.jump_vx (R200) -/
  | jpV0 (nnn : Addr12)
  /-- `CXNN` RND Vx, nn (R196) -/
  | rnd (x : Reg) (nn : Byte)
  /-- `DXYN` DRW Vx, Vy, n; n = 0 is an instruction (R233, R94) -/
  | drw (x y : Reg) (n : Nibble)
  /-- `EX9E` SKP Vx (R214) -/
  | skp (x : Reg)
  /-- `EXA1` SKNP Vx (R215) -/
  | sknp (x : Reg)
  /-- `FX07` LD Vx, DT (R211) -/
  | ldVxDT (x : Reg)
  /-- `FX0A` LD Vx, K (R216) -/
  | ldVxK (x : Reg)
  /-- `FX15` LD DT, Vx (R212) -/
  | ldDTVx (x : Reg)
  /-- `FX18` LD ST, Vx (R213) -/
  | ldSTVx (x : Reg)
  /-- `FX1E` ADD I, Vx (R181) -/
  | addI (x : Reg)
  /-- `FX29` LD F, Vx; exists only when FONT_BASE is some b (R188, R93) -/
  | ldF (x : Reg)
  /-- `FX33` LD B, Vx (R203) -/
  | ldB (x : Reg)
  /-- `FX55` LD [I], Vx (R184) -/
  | storeRegs (x : Reg)
  /-- `FX65` LD Vx, [I] (R186) -/
  | loadRegs (x : Reg)
  deriving DecidableEq, Repr

end Sys2Proof
end

