-- ==== Sys2Proof/Decode.lean ====
section
/-! DEFINITION. The decoder (spec/30_encoding.md R80–R96), the opcode table of R87, and the encoder written from the same
table. Decoding is total and refuses by name; no quirk and no mode takes part in it (R22, R80). FX29 decodes to its
instruction on every machine; that a machine with FONT_BASE = none raises UnknownOpcode for it is part of its meaning. -/

namespace Sys2Proof

/-- The six fields the Decoder computes for every word (R81). -/
structure Fields where
  op : Nibble
  x : Nibble
  y : Nibble
  n : Nibble
  nn : Byte
  nnn : Addr12
  deriving DecidableEq, Repr

/-- The field split, "Pure function, no side effects, no error cases" (R81, R83). -/
def fields (w : Word) : Fields :=
  { op := w.extractLsb' 12 4, x := w.extractLsb' 8 4, y := w.extractLsb' 4 4, n := w.extractLsb' 0 4,
    nn := w.extractLsb' 0 8, nnn := w.extractLsb' 0 12 }

/-- The register a register-index nibble names; every index is legal (R85). -/
def regOf (b : Nibble) : Reg := b.toFin

/-- Leading nibble 8: the second-level opcode is the low nibble (R82, R91). -/
def decodeFamily8 (f : Fields) : Option Instr :=
  match f.n.toNat with
  | 0x0 => some (.ldReg (regOf f.x) (regOf f.y))
  | 0x1 => some (.orReg (regOf f.x) (regOf f.y))
  | 0x2 => some (.andReg (regOf f.x) (regOf f.y))
  | 0x3 => some (.xorReg (regOf f.x) (regOf f.y))
  | 0x4 => some (.addReg (regOf f.x) (regOf f.y))
  | 0x5 => some (.sub (regOf f.x) (regOf f.y))
  | 0x6 => some (.shr (regOf f.x) (regOf f.y))
  | 0x7 => some (.subn (regOf f.x) (regOf f.y))
  | 0xE => some (.shl (regOf f.x) (regOf f.y))
  | _ => none

/-- Leading nibble F: the second-level opcode is the low byte (R82, R93). -/
def decodeFamilyF (f : Fields) : Option Instr :=
  match f.nn.toNat with
  | 0x07 => some (.ldVxDT (regOf f.x))
  | 0x0A => some (.ldVxK (regOf f.x))
  | 0x15 => some (.ldDTVx (regOf f.x))
  | 0x18 => some (.ldSTVx (regOf f.x))
  | 0x1E => some (.addI (regOf f.x))
  | 0x29 => some (.ldF (regOf f.x))
  | 0x33 => some (.ldB (regOf f.x))
  | 0x55 => some (.storeRegs (regOf f.x))
  | 0x65 => some (.loadRegs (regOf f.x))
  | _ => none

/-- Dispatch on the leading nibble (R87–R94, R110). -/
def decodeFields (f : Fields) : Option Instr :=
  match f.op.toNat with
  | 0x0 => if f.nnn = 0x0E0 then some .cls else if f.nnn = 0x0EE then some .ret else none
  | 0x1 => some (.jp f.nnn)
  | 0x2 => some (.call f.nnn)
  | 0x3 => some (.seImm (regOf f.x) f.nn)
  | 0x4 => some (.sneImm (regOf f.x) f.nn)
  | 0x5 => if f.n = 0 then some (.seReg (regOf f.x) (regOf f.y)) else none
  | 0x6 => some (.ldImm (regOf f.x) f.nn)
  | 0x7 => some (.addImm (regOf f.x) f.nn)
  | 0x8 => decodeFamily8 f
  | 0x9 => if f.n = 0 then some (.sneReg (regOf f.x) (regOf f.y)) else none
  | 0xA => some (.ldI f.nnn)
  | 0xB => some (.jpV0 f.nnn)
  | 0xC => some (.rnd (regOf f.x) f.nn)
  | 0xD => some (.drw (regOf f.x) (regOf f.y) f.n)
  | 0xE => if f.nn = 0x9E then some (.skp (regOf f.x)) else if f.nn = 0xA1 then some (.sknp (regOf f.x)) else none
  | 0xF => decodeFamilyF f
  | _ => none

/-- Why bytes are no instruction. -/
inductive DecodeError where
  /-- The word matches no row of R87 (R96): the step raises UnknownOpcode. -/
  | unknownOpcode (w : Word)
  /-- Fewer than two bytes were given. A fetch never does this: it always reads two (R63). -/
  | truncated
  deriving DecidableEq, Repr

/-- The instruction a word is, or the name of its rejection (R87, R96). -/
def decode (w : Word) : Except DecodeError Instr :=
  match decodeFields (fields w) with
  | some i => .ok i
  | none => .error (.unknownOpcode w)

/-- An instruction word from its two bytes, the byte at the lower address first: big-endian (R62). -/
def wordOfBytes (hi lo : Byte) : Word := hi ++ lo

/-- The two bytes of a word as memory holds them, the byte at the lower address first (R62). -/
def bytesOfWord (w : Word) : List Byte := [w.extractLsb' 8 8, w.extractLsb' 0 8]

/-- The decoder on bytes: the instruction at their head and the bytes after it; every instruction is 2 bytes (R80). -/
def decodeBytes : List Byte → Except DecodeError (Instr × List Byte)
  | hi :: lo :: rest =>
    match decode (wordOfBytes hi lo) with
    | .ok i => .ok (i, rest)
    | .error e => .error e
  | _ => .error .truncated

/-- What the decoder reads from an instruction whose bits are `w`, numbered as spec/opcode_table.json numbers them: the
one 16-bit word itself (spec/98_reader.md), laid out big-endian; bits at and above `nbits` are 0. -/
def decodeTableWord (nbits w : Nat) : Option Instr :=
  match decodeBytes (bytesOfWord (BitVec.ofNat 16 (w % 2 ^ nbits))) with
  | .ok (i, _) => some i
  | .error _ => none

/-- Format F_NNN (R84). -/
def wordNNN (op : Nibble) (nnn : Addr12) : Word := op ++ nnn

/-- Formats F_XNN and, with a fixed low byte, F_XS (R84). -/
def wordXNN (op : Nibble) (x : Reg) (nn : Byte) : Word := op ++ BitVec.ofFin (w := 4) x ++ nn

/-- Formats F_XYN and, with a fixed low nibble, F_XYS (R84). -/
def wordXYN (op : Nibble) (x y : Reg) (n : Nibble) : Word := op ++ BitVec.ofFin (w := 4) x ++ BitVec.ofFin (w := 4) y ++ n

/-- The word of an instruction (R84, R87). -/
def Instr.encode : Instr → Word
  | .cls => 0x00E0
  | .ret => 0x00EE
  | .jp nnn => wordNNN 0x1 nnn
  | .call nnn => wordNNN 0x2 nnn
  | .seImm x nn => wordXNN 0x3 x nn
  | .sneImm x nn => wordXNN 0x4 x nn
  | .seReg x y => wordXYN 0x5 x y 0x0
  | .ldImm x nn => wordXNN 0x6 x nn
  | .addImm x nn => wordXNN 0x7 x nn
  | .ldReg x y => wordXYN 0x8 x y 0x0
  | .orReg x y => wordXYN 0x8 x y 0x1
  | .andReg x y => wordXYN 0x8 x y 0x2
  | .xorReg x y => wordXYN 0x8 x y 0x3
  | .addReg x y => wordXYN 0x8 x y 0x4
  | .sub x y => wordXYN 0x8 x y 0x5
  | .shr x y => wordXYN 0x8 x y 0x6
  | .subn x y => wordXYN 0x8 x y 0x7
  | .shl x y => wordXYN 0x8 x y 0xE
  | .sneReg x y => wordXYN 0x9 x y 0x0
  | .ldI nnn => wordNNN 0xA nnn
  | .jpV0 nnn => wordNNN 0xB nnn
  | .rnd x nn => wordXNN 0xC x nn
  | .drw x y n => wordXYN 0xD x y n
  | .skp x => wordXNN 0xE x 0x9E
  | .sknp x => wordXNN 0xE x 0xA1
  | .ldVxDT x => wordXNN 0xF x 0x07
  | .ldVxK x => wordXNN 0xF x 0x0A
  | .ldDTVx x => wordXNN 0xF x 0x15
  | .ldSTVx x => wordXNN 0xF x 0x18
  | .addI x => wordXNN 0xF x 0x1E
  | .ldF x => wordXNN 0xF x 0x29
  | .ldB x => wordXNN 0xF x 0x33
  | .storeRegs x => wordXNN 0xF x 0x55
  | .loadRegs x => wordXNN 0xF x 0x65

/-- A row of the opcode map: "A word is the instruction of a row when (w & mask) = match" (R87). -/
structure OpcodeRow where
  mnemonic : String
  pattern : Word
  mask : Word
  deriving DecidableEq, Repr

/-- The word is the row's (R87). -/
def OpcodeRow.covers (r : OpcodeRow) (w : Word) : Bool := w &&& r.mask == r.pattern

/-- Rows `00E0` to `7XNN` of the opcode map (R87). -/
def opcodeRowsLow : List OpcodeRow :=
  [ ⟨"CLS", 0x00E0, 0xFFFF⟩, ⟨"RET", 0x00EE, 0xFFFF⟩, ⟨"JP_nnn", 0x1000, 0xF000⟩, ⟨"CALL_nnn", 0x2000, 0xF000⟩,
    ⟨"SE_Vx__nn", 0x3000, 0xF000⟩, ⟨"SNE_Vx__nn", 0x4000, 0xF000⟩, ⟨"SE_Vx__Vy", 0x5000, 0xF00F⟩,
    ⟨"LD_Vx__nn", 0x6000, 0xF000⟩, ⟨"ADD_Vx__nn", 0x7000, 0xF000⟩ ]

/-- Rows `8XY0` to `9XY0` of the opcode map (R87). -/
def opcodeRowsAlu : List OpcodeRow :=
  [ ⟨"LD_Vx__Vy", 0x8000, 0xF00F⟩, ⟨"OR_Vx__Vy", 0x8001, 0xF00F⟩, ⟨"AND_Vx__Vy", 0x8002, 0xF00F⟩,
    ⟨"XOR_Vx__Vy", 0x8003, 0xF00F⟩, ⟨"ADD_Vx__Vy", 0x8004, 0xF00F⟩, ⟨"SUB_Vx__Vy", 0x8005, 0xF00F⟩,
    ⟨"SHR_Vx__Vy", 0x8006, 0xF00F⟩, ⟨"SUBN_Vx__Vy", 0x8007, 0xF00F⟩, ⟨"SHL_Vx__Vy", 0x800E, 0xF00F⟩,
    ⟨"SNE_Vx__Vy", 0x9000, 0xF00F⟩ ]

/-- Rows `ANNN` to `EXA1` of the opcode map (R87). -/
def opcodeRowsMid : List OpcodeRow :=
  [ ⟨"LD_I__nnn", 0xA000, 0xF000⟩, ⟨"JP_V0__nnn", 0xB000, 0xF000⟩, ⟨"RND_Vx__nn", 0xC000, 0xF000⟩,
    ⟨"DRW_Vx__Vy__n", 0xD000, 0xF000⟩, ⟨"SKP_Vx", 0xE09E, 0xF0FF⟩, ⟨"SKNP_Vx", 0xE0A1, 0xF0FF⟩ ]

/-- Rows `FX07` to `FX65` of the opcode map (R87). -/
def opcodeRowsF : List OpcodeRow :=
  [ ⟨"LD_Vx__DT", 0xF007, 0xF0FF⟩, ⟨"LD_Vx__K", 0xF00A, 0xF0FF⟩, ⟨"LD_DT__Vx", 0xF015, 0xF0FF⟩,
    ⟨"LD_ST__Vx", 0xF018, 0xF0FF⟩, ⟨"ADD_I__Vx", 0xF01E, 0xF0FF⟩, ⟨"LD_F__Vx", 0xF029, 0xF0FF⟩,
    ⟨"LD_B__Vx", 0xF033, 0xF0FF⟩, ⟨"LD__I___Vx", 0xF055, 0xF0FF⟩, ⟨"LD_Vx___I", 0xF065, 0xF0FF⟩ ]

/-- The opcode map of R87, with the mnemonics of spec/opcode_table.json, row for row. -/
def opcodeRows : List OpcodeRow := opcodeRowsLow ++ opcodeRowsAlu ++ opcodeRowsMid ++ opcodeRowsF

/-- The number of an instruction's row in the opcode map (R87). -/
def Instr.rowIndex : Instr → Nat
  | .cls => 0
  | .ret => 1
  | .jp _ => 2
  | .call _ => 3
  | .seImm _ _ => 4
  | .sneImm _ _ => 5
  | .seReg _ _ => 6
  | .ldImm _ _ => 7
  | .addImm _ _ => 8
  | .ldReg _ _ => 9
  | .orReg _ _ => 10
  | .andReg _ _ => 11
  | .xorReg _ _ => 12
  | .addReg _ _ => 13
  | .sub _ _ => 14
  | .shr _ _ => 15
  | .subn _ _ => 16
  | .shl _ _ => 17
  | .sneReg _ _ => 18
  | .ldI _ => 19
  | .jpV0 _ => 20
  | .rnd _ _ => 21
  | .drw _ _ _ => 22
  | .skp _ => 23
  | .sknp _ => 24
  | .ldVxDT _ => 25
  | .ldVxK _ => 26
  | .ldDTVx _ => 27
  | .ldSTVx _ => 28
  | .addI _ => 29
  | .ldF _ => 30
  | .ldB _ => 31
  | .storeRegs _ => 32
  | .loadRegs _ => 33

end Sys2Proof
end

