-- ==== Sys2Proof/Config.lean ====
section
/-! DEFINITION. What is fixed at construction and what the spec leaves free (spec/00_scope.md R6, R7; spec/10_state.md
R20–R22). A value the spec marks OPEN is an opaque constant: no proof can see what it is. -/

namespace Sys2Proof

/-- The quirk configuration Q, five independent booleans; every combination is legal (R20). -/
structure Quirks where
  /-- SHR and SHL shift the value of Vy, copied into Vx first (R164). -/
  shiftVy : Bool
  /-- BNNN adds Vx instead of V0 (R200). -/
  jumpVx : Bool
  /-- OR, AND and XOR set VF to 0 (R156). -/
  logicClearsVf : Bool
  /-- FX55 and FX65 leave I advanced by x+1 (R183). -/
  indexIncrement : Bool
  /-- DXYN skips off-screen pixels instead of wrapping (R231). -/
  clip : Bool
  deriving DecidableEq, Repr, Inhabited

/-- Q as one byte, for serialisation only: bits 0 to 4 are the five fields in order, bits 7:5 are zero (R21). -/
def Quirks.pack (q : Quirks) : Byte :=
  0#3 ++ BitVec.ofBool q.clip ++ BitVec.ofBool q.indexIncrement ++ BitVec.ofBool q.logicClearsVf
    ++ BitVec.ofBool q.jumpVx ++ BitVec.ofBool q.shiftVy

/-- The record a packed byte stands for (R21); bits 7:5 are not looked at (log entry 1). -/
def Quirks.unpack (b : Byte) : Quirks :=
  { shiftVy := b.getLsbD 0, jumpVx := b.getLsbD 1, logicClearsVf := b.getLsbD 2,
    indexIncrement := b.getLsbD 3, clip := b.getLsbD 4 }

/-- The quirk record of this machine. OPEN in the spec (R7, D29): no default is taken. Log entry 1. -/
opaque Config.quirks : Quirks

/-- FONT_BASE of this machine: whether FX29 exists and where its glyphs start. OPEN in the spec (R7, D8). Log entry 2. -/
opaque Config.fontBase : Option Addr12

/-- The byte the n-th random draw gives: a free value, no distribution and no law relating two draws (R196, D22, K7).
Log entry 4. -/
opaque Config.randomByte : Nat → Byte

/-- "program load address 0x200" (R6, R68, R291). -/
abbrev Config.programBase : Nat := 0x200

/-- "ROM window 0xE00 bytes" (R6, R270). -/
abbrev Config.romWindow : Nat := 0xE00

end Sys2Proof
end

