-- ==== Sys2Proof/Machine/State.lean ====
section
/-! DEFINITION. The state of the machine (spec/10_state.md R20–R40), what a step can report, and the state after reset. -/

namespace Sys2Proof.Machine

/-- Memory: the listed (address, byte) pairs, addresses strictly rising, no entry 0; an unlisted address reads 0, the
spec's own reset content (R37, R40, R68). -/
abbrev Memory := List Host.Cell

/-- FB[c][r], column c of 64 and row r of 32; `true` is a lit pixel (R34). -/
abbrev FrameBuffer := Vector (Vector Bool 32) 64

/-- The three errors a step can raise, "exactly three" (R250). A raise is no end of the machine: its entry is described
by R252 and `step` stays enabled (R118, R253), so an error is recorded in `State.result` of a NEXT state and
`Host.Outcome.fault` is never answered (log entry 3). -/
inductive Fault where
  /-- Raised by CALL with SP = 16 (R132). Safe: the rule fixes the state after it. -/
  | stackOverflow
  /-- Raised by RET with SP = 0 (R133). Safe: the rule fixes the state after it. -/
  | stackUnderflow
  /-- Raised by dispatch for a word that matches no row of R87, and for FX29 with FONT_BASE = none (R93, R96). Safe: the
  rule fixes the state after it. -/
  | unknownOpcode
  deriving DecidableEq, Repr

/-- Why the model would give an instruction no meaning. -/
inductive Refusal where
  /-- Raised by an arm of `exec` for an instruction not modelled yet. No arm of this model does. Safe: the run stops. -/
  | notModelled (mnemonic : String)
  deriving DecidableEq, Repr

/-- What a step returns (R110, R112, R250). -/
inductive Result where
  /-- The instruction completed, a waiting FX0A among them. -/
  | ok
  /-- The instruction raised this error. -/
  | err (e : Fault)
  deriving DecidableEq, Repr

/-- The whole Machine State (R20–R37, R39) with the construction arguments Q and FONT_BASE, and two fields of the
model's own: `result`, the output of the latest step (R39 calls it an output, not state), and `draws`. -/
structure State where
  /-- V[0]..V[15] (R23) -/
  v : Vector Byte 16
  /-- I (R26) -/
  i : Word
  /-- PC (R28) -/
  pc : Word
  /-- SP, the number of occupied stack entries, 0..16 (R30) -/
  sp : Fin 17
  /-- STACK[0]..STACK[15] (R31) -/
  stack : Vector Word 16
  /-- DT (R32) -/
  dt : Byte
  /-- ST (R33) -/
  st : Byte
  /-- FB (R34) -/
  fb : FrameBuffer
  /-- KEY[0]..KEY[15] (R35) -/
  key : Vector Bool 16
  /-- NEW[0]..NEW[15] (R36) -/
  newKey : Vector Bool 16
  /-- MEM[0x000]..MEM[0xFFF] (R37) -/
  mem : Memory
  /-- Q (R20), never mutated after construction -/
  quirks : Quirks
  /-- FONT_BASE (R7, R188), never mutated after construction -/
  fontBase : Option Addr12
  /-- The model's own: what the latest step returned (log entry 3). -/
  result : Result
  /-- The model's own: how many random bytes have been drawn (R196; log entry 4). -/
  draws : Nat
  deriving DecidableEq, Repr

/-- The machine right after construction with the arguments of this hardware (R40, R290): PC = 0x200, everything else
zero. Q and FONT_BASE are the OPEN construction arguments (log entries 1, 2); `result` and `draws` are the model's own
(log entries 3, 4). -/
def State.reset : State where
  v := Vector.replicate 16 0
  i := 0
  pc := 0x200
  sp := 0
  stack := Vector.replicate 16 0
  dt := 0
  st := 0
  fb := Vector.replicate 64 (Vector.replicate 32 false)
  key := Vector.replicate 16 false
  newKey := Vector.replicate 16 false
  mem := []
  quirks := Config.quirks
  fontBase := Config.fontBase
  result := .ok
  draws := 0

end Sys2Proof.Machine
end

