-- ==== Sys2Proof/Machine/Ops.lean ====
section
/-! DEFINITION. The named operations every meaning is written over: addresses, memory, the register file, PC, the stack
push/pop unit, fetching, ending a step with Ok, and raising an error (the one trap mechanism, spec/60_exceptions.md R252). -/

namespace Sys2Proof.Machine

/-! ### Addresses -/

/-- `a & 0xFFF`, the mask on every address an instruction forms and on every write of PC and I (R11, R26, R28, R65). -/
def mask12 (a : Word) : Word := a &&& 0xFFF

/-- `zext_16` of a 12-bit address (R9, R85). -/
def wordOfAddr (a : Addr12) : Word := a.setWidth 16

/-- `zext_16` of a byte (R9, R85). -/
def wordOfByte (b : Byte) : Word := b.setWidth 16

/-! ### Memory -/

/-- The byte at an address of the listed form; an unlisted address reads 0 (R40, R68). -/
def Memory.readCell : Memory → Nat → Byte
  | [], _ => 0
  | (k, b) :: rest, a => if k = a then b else Memory.readCell rest a

/-- The memory with the byte at address `a` replaced, in the same canonical form: a written 0 is not listed. -/
def Memory.writeCell : Memory → Nat → Byte → Memory
  | [], a, v => if v = 0 then [] else [(a, v)]
  | (k, b) :: rest, a, v =>
    if a < k then (if v = 0 then (k, b) :: rest else (a, v) :: (k, b) :: rest)
    else if a = k then (if v = 0 then rest else (a, v) :: rest)
    else (k, b) :: Memory.writeCell rest a v

/-- The canonical form: addresses strictly rising and below 4096 (R37), no listed byte equal to 0. -/
abbrev Memory.wf (m : Memory) : Prop :=
  (m.map Prod.fst).Pairwise (· < ·) ∧ ∀ c ∈ m, c.1 < 4096 ∧ c.2 ≠ 0

/-- `MemRead(addr, 1)` (R11). -/
def Memory.read (m : Memory) (a : Word) : Byte := Memory.readCell m (mask12 a).toNat

/-- `MemWrite(addr, 1, v)` (R11). -/
def Memory.write (m : Memory) (a : Word) (v : Byte) : Memory := Memory.writeCell m (mask12 a).toNat v

/-- `MEM[base + i] <- bytes[i]` for each i, in ascending order: how construction and load_rom fill memory (R40, R270). -/
def Memory.load (m : Memory) (base : Nat) : List Byte → Memory
  | [] => m
  | b :: rest => Memory.load (Memory.writeCell m base b) (base + 1) rest

/-! ### Replacing one piece of state -/

/-- Replaces the whole register file V. -/
def State.setRegs (s : State) (a : Vector Byte 16) : State := { s with v := a }

/-- Replaces I. -/
def State.setI (s : State) (a : Word) : State := { s with i := a }

/-- Replaces PC. -/
def State.setPc (s : State) (a : Word) : State := { s with pc := a }

/-- Replaces SP. -/
def State.setSp (s : State) (a : Fin 17) : State := { s with sp := a }

/-- Replaces the stack entries. -/
def State.setStack (s : State) (a : Vector Word 16) : State := { s with stack := a }

/-- Replaces DT. -/
def State.setDt (s : State) (a : Byte) : State := { s with dt := a }

/-- Replaces ST. -/
def State.setSt (s : State) (a : Byte) : State := { s with st := a }

/-- Replaces the frame buffer. -/
def State.setFb (s : State) (a : FrameBuffer) : State := { s with fb := a }

/-- Replaces the key-down matrix. -/
def State.setKey (s : State) (a : Vector Bool 16) : State := { s with key := a }

/-- Replaces the newly-pressed matrix. -/
def State.setNewKey (s : State) (a : Vector Bool 16) : State := { s with newKey := a }

/-- Replaces memory. -/
def State.setMem (s : State) (a : Memory) : State := { s with mem := a }

/-- Replaces the recorded result of the step. -/
def State.setResult (s : State) (a : Result) : State := { s with result := a }

/-- Replaces the draw counter. -/
def State.setDraws (s : State) (a : Nat) : State := { s with draws := a }

/-! ### Registers -/

/-- The register read `V[x]` (R10, R23). -/
def State.getV (s : State) (x : Reg) : Byte := s.v[x]

/-- The register write `V[x] <- b` (R10, R23); no register is hardwired. -/
def State.setV (s : State) (x : Reg) (b : Byte) : State := s.setRegs (s.v.set x b)

/-! ### The program counter -/

/-- The word at PC, read big-endian as two single bytes; the second address wraps (R62, R63, R64). -/
def State.fetchWord (s : State) : Word := wordOfBytes (s.mem.read s.pc) (s.mem.read (s.pc + 1))

/-- The advance, before the instruction executes: `PC <- (A + 2) & 0xFFF` (R110, R111). -/
def State.advance (s : State) : State := s.setPc (mask12 (s.pc + 2))

/-- The skip primitive, on the already advanced PC (R130). -/
def State.skip (s : State) : State := s.setPc (mask12 (s.pc + 2))

/-- The rewind of the advanced PC to the address the instruction was fetched from, `(PC - 2) & 0xFFF` (R114, R252). -/
def State.rewind (s : State) : State := s.setPc (mask12 (s.pc - 2))

/-! ### Ending a step -/

/-- The instruction completed: the step returns Ok (R112). -/
def State.completed (s : State) : State := s.setResult .ok

/-- `raise E`, the error entry: PC back to the fetch address, the step returns Err(E), nothing else changes; nothing is
saved anywhere else, there is no vector and no mode change (R12, R250, R252). Every raise point precedes every write of its
instruction, so `s` is the state the advance left. There is no return from an error (R255): the next step is an ordinary
one. -/
def State.raised (s : State) (e : Fault) : State := s.rewind.setResult (.err e)

/-- The serialisation code of a result (R251); no program reads it. -/
def Result.code : Result → Nat
  | .ok => 0
  | .err .stackOverflow => 1
  | .err .stackUnderflow => 2
  | .err .unknownOpcode => 3

/-! ### The stack push/pop unit -/

/-- Push: `STACK[SP] <- PC`, then `SP <- SP + 1` (R30, R132). Used with SP < 16 only. -/
def State.pushPc (s : State) : State :=
  (s.setStack (s.stack.setIfInBounds s.sp.val s.pc)).setSp (Fin.ofNat 17 (s.sp.val + 1))

/-- Pop: `SP <- SP - 1`, then `PC <- STACK[SP] & 0xFFF`; the entry keeps its value (R30, R38, R133). Used with SP > 0
only. -/
def State.popPc (s : State) : State :=
  (s.setSp (Fin.ofNat 17 (s.sp.val - 1))).setPc (mask12 (s.stack.getD (s.sp.val - 1) 0))

/-! ### The frame buffer -/

/-- The pixel in column `c` and row `r` (R34). -/
def FrameBuffer.pixel (fb : FrameBuffer) (c : Fin 64) (r : Fin 32) : Bool := fb[c][r]

/-- `FB[c][r] <- FB[c][r] ^ 1` (R233). -/
def FrameBuffer.toggle (fb : FrameBuffer) (c : Fin 64) (r : Fin 32) : FrameBuffer :=
  fb.set c (fb[c].set r (!fb[c][r]))

/-- All pixels 0 (R235). -/
def FrameBuffer.blank : FrameBuffer := Vector.replicate 64 (Vector.replicate 32 false)

end Sys2Proof.Machine
end

