-- ==== Sys2Proof/Machine/Operands.lean ====
section
/-! DEFINITION. The operand forms: the shift source, the jump offset register, the addresses through I, the key tests and
the decimal digits (spec/30_encoding.md R85, R86 and the rules of files 41 to 46). Plain register operands are
`State.getV`; immediates are used as they are. -/

namespace Sys2Proof.Machine

/-- `(c ? skip : nothing)`, the taken or untaken skip (R130). -/
def State.skipIf (s : State) (c : Bool) : State := if c then s.skip else s

/-- The value a shift shifts: V[y] with Q.shift_vy, else V[x] (R164). -/
def State.shiftSource (s : State) (x y : Reg) : Byte := if s.quirks.shiftVy then s.getV y else s.getV x

/-- The offset register of BNNN: `x = nnn[11:8]` with Q.jump_vx, else V0 (R200). -/
def State.jumpReg (s : State) (nnn : Addr12) : Reg := if s.quirks.jumpVx then regOf (nnn.extractLsb' 8 4) else 0

/-- The address of register k of a block transfer, or of row k of a sprite, before the mask (R182, R233). -/
def blockAddr (base : Word) (k : Nat) : Word := base + BitVec.ofNat 16 k

/-- The index increment quirk: I after a block transfer of V0..Vx (R183). -/
def State.indexAfter (s : State) (x : Reg) : Word :=
  if s.quirks.indexIncrement then mask12 (blockAddr s.i (x.val + 1)) else s.i

/-- Memory after `MemWrite((base + k) & 0xFFF, 1, V[k])` for k = 0 .. n−1 in ascending order (R182, R184). -/
def storeBlock (v : Vector Byte 16) (base : Word) (m : Memory) : Nat → Memory
  | 0 => m
  | n + 1 => (storeBlock v base m n).write (blockAddr base n) (v.getD n 0)

/-- The registers after `V[k] <- MemRead((base + k) & 0xFFF, 1)` for k = 0 .. n−1 in ascending order (R182, R186). -/
def loadBlock (m : Memory) (base : Word) (v : Vector Byte 16) : Nat → Vector Byte 16
  | 0 => v
  | n + 1 => (loadBlock m base v n).setIfInBounds n (m.read (blockAddr base n))

/-- The glyph address `(b + 5 * (v & 0x0F)) & 0xFFF` (R188). -/
def glyphAddr (b : Addr12) (v : Byte) : Word := mask12 (wordOfAddr b + 5 * wordOfByte (v &&& 0x0F))

/-- The hundreds digit, 0..2 (R203). -/
def hundreds (v : Byte) : Byte := BitVec.ofNat 8 (v.toNat / 100)

/-- The tens digit (R203). -/
def tens (v : Byte) : Byte := BitVec.ofNat 8 (v.toNat / 10 % 10)

/-- The units digit (R203). -/
def units (v : Byte) : Byte := BitVec.ofNat 8 (v.toNat % 10)

/-- The key test `down(v) = (v < 16) and KEY[v] = 1`; a value ≥ 16 names no key and is never down (R210). -/
def State.keyDownAt (s : State) (v : Byte) : Bool := s.key.getD v.toNat false

/-- `min { k | NEW[k] = 1 }`, none when no key is newly pressed (R216). -/
def State.lowestNewKey (s : State) : Option (Fin 16) := (List.finRange 16).find? fun k => s.newKey[k]

end Sys2Proof.Machine
end

