-- ==== Sys2Proof/Machine/ControlFlow.lean ====
section
/-! DEFINITION. The meanings of spec/41_control_flow.md. On entry PC is the advanced PC, `(A + 2) & 0xFFF` (R29). -/

namespace Sys2Proof.Machine

/-- RET (R133). -/
def execRet (s : State) : Host.Outcome State Fault Refusal :=
  .next (if s.sp.val = 0 then s.raised .stackUnderflow else s.popPc.completed)

/-- JP nnn (R131). -/
def execJp (nnn : Addr12) (s : State) : Host.Outcome State Fault Refusal :=
  .next (s.setPc (wordOfAddr nnn)).completed

/-- CALL nnn (R132). -/
def execCall (nnn : Addr12) (s : State) : Host.Outcome State Fault Refusal :=
  .next (if s.sp.val = 16 then s.raised .stackOverflow else (s.pushPc.setPc (wordOfAddr nnn)).completed)

/-- SE Vx, nn (R134). -/
def execSeImm (x : Reg) (nn : Byte) (s : State) : Host.Outcome State Fault Refusal :=
  .next (s.skipIf (s.getV x == nn)).completed

/-- SNE Vx, nn (R135). -/
def execSneImm (x : Reg) (nn : Byte) (s : State) : Host.Outcome State Fault Refusal :=
  .next (s.skipIf (s.getV x != nn)).completed

/-- SE Vx, Vy (R136). -/
def execSeReg (x y : Reg) (s : State) : Host.Outcome State Fault Refusal :=
  .next (s.skipIf (s.getV x == s.getV y)).completed

/-- SNE Vx, Vy (R137). -/
def execSneReg (x y : Reg) (s : State) : Host.Outcome State Fault Refusal :=
  .next (s.skipIf (s.getV x != s.getV y)).completed

end Sys2Proof.Machine
end

