-- ==== Sys2Proof/Machine/Derived.lean ====
section
/-! DEFINITION. The meanings of spec/44_derived.md. -/

namespace Sys2Proof.Machine

/-- RND Vx, nn: one fresh draw per execution, a free value (R196, D22; log entry 4). -/
def execRnd (x : Reg) (nn : Byte) (s : State) : Host.Outcome State Fault Refusal :=
  .next ((s.setV x (Config.randomByte s.draws &&& nn)).setDraws (s.draws + 1)).completed

/-- JP V0, nnn, or JP Vx, nnn under Q.jump_vx; the base is the full nnn under both (R200). -/
def execJpV0 (nnn : Addr12) (s : State) : Host.Outcome State Fault Refusal :=
  .next (s.setPc (mask12 (wordOfAddr nnn + wordOfByte (s.getV (s.jumpReg nnn))))).completed

/-- LD B, Vx: the three decimal digits to I, I+1, I+2, in that order (R203). -/
def execLdB (x : Reg) (s : State) : Host.Outcome State Fault Refusal :=
  .next (s.setMem (((s.mem.write s.i (hundreds (s.getV x))).write (s.i + 1) (tens (s.getV x))).write
    (s.i + 2) (units (s.getV x)))).completed

end Sys2Proof.Machine
end

