-- ==== Sys2Proof/Machine/Flags.lean ====
section
/-! DEFINITION. Every value an instruction writes to VF as a flag (spec/10_state.md R24, 42_register_alu.md R151, R152,
R156, R165, R166). The collision flag of DXYN is computed where the pixels are, in Display.lean. -/

namespace Sys2Proof.Machine

/-- `carry(a, b) = 1 if a + b > 255 else 0` (R152). -/
def carry (a b : Byte) : Bool := decide (a.toNat + b.toNat > 255)

/-- `notborrow(a, b) = 1 if a ≥ b else 0`, the minuend is a (R152). -/
def notBorrow (a b : Byte) : Bool := decide (a.toNat ≥ b.toNat)

/-- The bit SHR shifts out, bit 0 (R165). -/
def outRight (b : Byte) : Bool := b.getLsbD 0

/-- The bit SHL shifts out, bit 7 (R166). -/
def outLeft (b : Byte) : Bool := b.getLsbD 7

/-- A flag as a register value, 0 or 1 (R24). -/
def flagByte (f : Bool) : Byte := if f then 1 else 0

/-- The flag write, always the last write of its instruction, so that the flag is what remains when x = F (R151). -/
def State.setFlag (s : State) (f : Bool) : State := s.setV vF (flagByte f)

/-- The logic-op flag quirk: `if Q.logic_clears_vf then V[15] <- 0` (R156). -/
def State.logicFlag (s : State) : State := if s.quirks.logicClearsVf then s.setV vF 0 else s

end Sys2Proof.Machine
end

