-- ==== Sys2Proof/Machine/Display.lean ====
section
/-! DEFINITION. The Display Compositor and the meanings of spec/46_display.md. -/

namespace Sys2Proof.Machine

/-- A pixel position, column and row (R34). -/
abbrev Pixel := Fin 64 × Fin 32

/-- `bit(row, col) = (row >> (7 - col)) & 1`: bit 7 is the leftmost column (R230). -/
def spriteBit (row : Byte) (c : Nat) : Bool := row.getLsbD (7 - c)

/-- Where sprite bit (row r, column c) drawn at origin (x0, y0) goes: mod 64 and mod 32 when wrapping; with clipping, the
unreduced position or nowhere (R231). -/
def placePixel (clip : Bool) (x0 y0 : Byte) (c r : Nat) : Option Pixel :=
  if clip then
    if h : x0.toNat + c < 64 ∧ y0.toNat + r < 32 then some (⟨x0.toNat + c, h.1⟩, ⟨y0.toNat + r, h.2⟩) else none
  else some (Fin.ofNat 64 (x0.toNat + c), Fin.ofNat 32 (y0.toNat + r))

/-- The pixels one sprite row XORs, in column order (R233). -/
def rowTargets (clip : Bool) (x0 y0 : Byte) (row : Byte) (r : Nat) : List Pixel :=
  (List.range 8).filterMap fun c => if spriteBit row c then placePixel clip x0 y0 c r else none

/-- The pixels a draw of n rows XORs, row by row; row r is the byte at `(base + r) & 0xFFF` (R233). -/
def spriteTargets (clip : Bool) (x0 y0 : Byte) (m : Memory) (base : Word) (n : Nat) : List Pixel :=
  (List.range n).flatMap fun r => rowTargets clip x0 y0 (m.read (blockAddr base r)) r

/-- `hit <- hit | FB[px][py]; FB[px][py] <- FB[px][py] ^ 1` over the target pixels in order: the frame buffer after and
the collision flag, the OR of every pixel's value before its XOR (R232, R233). -/
def xorPixels : List Pixel → FrameBuffer → FrameBuffer × Bool
  | [], fb => (fb, false)
  | p :: ps, fb =>
    ((xorPixels ps (fb.toggle p.1 p.2)).1, fb.pixel p.1 p.2 || (xorPixels ps (fb.toggle p.1 p.2)).2)

/-- The draw of the compositor, `draw(state, x, y, n)`: the frame buffer after it and the collision flag (R233). -/
def State.drawSprite (s : State) (x y : Reg) (n : Nibble) : FrameBuffer × Bool :=
  xorPixels (spriteTargets s.quirks.clip (s.getV x) (s.getV y) s.mem s.i n.toNat) s.fb

/-- CLS (R235). -/
def execCls (s : State) : Host.Outcome State Fault Refusal :=
  .next (s.setFb FrameBuffer.blank).completed

/-- DRW Vx, Vy, n: VF is always written, last (R233). -/
def execDrw (x y : Reg) (n : Nibble) (s : State) : Host.Outcome State Fault Refusal :=
  .next ((s.setFb (s.drawSprite x y n).1).setFlag (s.drawSprite x y n).2).completed

end Sys2Proof.Machine
end

