-- ==== Sys2Proof/Machine/MemoryIndex.lean ====
section
/-! DEFINITION. The meanings of spec/43_memory_index.md. The only addressing mode is register-indirect through I. -/

namespace Sys2Proof.Machine

/-- LD I, nnn (R180). -/
def execLdI (nnn : Addr12) (s : State) : Host.Outcome State Fault Refusal :=
  .next (s.setI (wordOfAddr nnn)).completed

/-- ADD I, Vx: VF is not written (R181). -/
def execAddI (x : Reg) (s : State) : Host.Outcome State Fault Refusal :=
  .next (s.setI (mask12 (s.i + wordOfByte (s.getV x)))).completed

/-- LD [I], Vx: stores V0..Vx (R184, R182, R183). -/
def execStoreRegs (x : Reg) (s : State) : Host.Outcome State Fault Refusal :=
  .next ((s.setMem (storeBlock s.v s.i s.mem (x.val + 1))).setI (s.indexAfter x)).completed

/-- LD Vx, [I]: loads V0..Vx (R186, R182, R183). -/
def execLoadRegs (x : Reg) (s : State) : Host.Outcome State Fault Refusal :=
  .next ((s.setRegs (loadBlock s.mem s.i s.v (x.val + 1))).setI (s.indexAfter x)).completed

/-- LD F, Vx: exists only when FONT_BASE is some b; with none the word raises UnknownOpcode (R188, R93). -/
def execLdF (x : Reg) (s : State) : Host.Outcome State Fault Refusal :=
  .next (match s.fontBase with
    | some b => (s.setI (glyphAddr b (s.getV x))).completed
    | none => s.raised .unknownOpcode)

end Sys2Proof.Machine
end

