-- ==== Sys2Proof/Machine/RegisterAlu.lean ====
section
/-! DEFINITION. The meanings of spec/42_register_alu.md: every value is 8 bits and every result is reduced mod 256 (R150);
both operands are read before any write, Vx is written first and VF last (R151). -/

namespace Sys2Proof.Machine

/-- LD Vx, nn (R153). -/
def execLdImm (x : Reg) (nn : Byte) (s : State) : Host.Outcome State Fault Refusal :=
  .next (s.setV x nn).completed

/-- ADD Vx, nn: no flag (R154). -/
def execAddImm (x : Reg) (nn : Byte) (s : State) : Host.Outcome State Fault Refusal :=
  .next (s.setV x (s.getV x + nn)).completed

/-- LD Vx, Vy (R155). -/
def execLdReg (x y : Reg) (s : State) : Host.Outcome State Fault Refusal :=
  .next (s.setV x (s.getV y)).completed

/-- OR Vx, Vy (R158, R156). -/
def execOrReg (x y : Reg) (s : State) : Host.Outcome State Fault Refusal :=
  .next (s.setV x (s.getV x ||| s.getV y)).logicFlag.completed

/-- AND Vx, Vy (R159, R156). -/
def execAndReg (x y : Reg) (s : State) : Host.Outcome State Fault Refusal :=
  .next (s.setV x (s.getV x &&& s.getV y)).logicFlag.completed

/-- XOR Vx, Vy (R160, R156). -/
def execXorReg (x y : Reg) (s : State) : Host.Outcome State Fault Refusal :=
  .next (s.setV x (s.getV x ^^^ s.getV y)).logicFlag.completed

/-- ADD Vx, Vy (R161). -/
def execAddReg (x y : Reg) (s : State) : Host.Outcome State Fault Refusal :=
  .next ((s.setV x (s.getV x + s.getV y)).setFlag (carry (s.getV x) (s.getV y))).completed

/-- SUB Vx, Vy: Vx minus Vy (R162). -/
def execSub (x y : Reg) (s : State) : Host.Outcome State Fault Refusal :=
  .next ((s.setV x (s.getV x - s.getV y)).setFlag (notBorrow (s.getV x) (s.getV y))).completed

/-- SUBN Vx, Vy: Vy minus Vx (R163). -/
def execSubn (x y : Reg) (s : State) : Host.Outcome State Fault Refusal :=
  .next ((s.setV x (s.getV y - s.getV x)).setFlag (notBorrow (s.getV y) (s.getV x))).completed

/-- SHR Vx, Vy (R165, R164). -/
def execShr (x y : Reg) (s : State) : Host.Outcome State Fault Refusal :=
  .next ((s.setV x (s.shiftSource x y >>> 1)).setFlag (outRight (s.shiftSource x y))).completed

/-- SHL Vx, Vy (R166, R164). -/
def execShl (x y : Reg) (s : State) : Host.Outcome State Fault Refusal :=
  .next ((s.setV x (s.shiftSource x y <<< 1)).setFlag (outLeft (s.shiftSource x y))).completed

end Sys2Proof.Machine
end

