-- ==== Sys2Proof/Machine/TimerInput.lean ====
section
/-! DEFINITION. The meanings of spec/45_timer_input.md. The timers count down only in the host's tick (R260). -/

namespace Sys2Proof.Machine

/-- LD Vx, DT (R211). -/
def execLdVxDT (x : Reg) (s : State) : Host.Outcome State Fault Refusal :=
  .next (s.setV x s.dt).completed

/-- LD DT, Vx (R212). -/
def execLdDTVx (x : Reg) (s : State) : Host.Outcome State Fault Refusal :=
  .next (s.setDt (s.getV x)).completed

/-- LD ST, Vx (R213). -/
def execLdSTVx (x : Reg) (s : State) : Host.Outcome State Fault Refusal :=
  .next (s.setSt (s.getV x)).completed

/-- SKP Vx (R214). -/
def execSkp (x : Reg) (s : State) : Host.Outcome State Fault Refusal :=
  .next (s.skipIf (s.keyDownAt (s.getV x))).completed

/-- SKNP Vx: an index ≥ 16 always skips (R215, D17). -/
def execSknp (x : Reg) (s : State) : Host.Outcome State Fault Refusal :=
  .next (s.skipIf (!s.keyDownAt (s.getV x))).completed

/-- LD Vx, K: waits by rewinding PC while no key is newly pressed, with result Ok; NEW is not cleared and KEY is not
consulted (R216, R114, R112). -/
def execLdVxK (x : Reg) (s : State) : Host.Outcome State Fault Refusal :=
  .next (match s.lowestNewKey with
    | none => s.rewind.completed
    | some k => (s.setV x (BitVec.ofNat 8 k.val)).completed)

end Sys2Proof.Machine
end

