-- ==== Sys2Proof/Machine/Step.lean ====
section
/-! DEFINITION. The step transaction (spec/40_execution_cycle.md R110) and placing an instruction where the next step
fetches it. -/

namespace Sys2Proof.Machine

/-- `step()`: fetch the big-endian word at PC, advance PC, decode, and execute the row's rule, or raise UnknownOpcode when
no row matches (R110, R96). -/
def step (s : State) : Host.Outcome State Fault Refusal :=
  match decode s.fetchWord with
  | .ok i => exec i s.advance
  | .error _ => .next (s.advance.raised .unknownOpcode)

/-- `s` with the instruction word of bits `w` (numbered as spec/opcode_table.json numbers them) at PC, big-endian. -/
def State.withFetchWord (s : State) (nbits w : Nat) : State :=
  s.setMem ((s.mem.write s.pc ((BitVec.ofNat 16 (w % 2 ^ nbits)).extractLsb' 8 8)).write (s.pc + 1)
    ((BitVec.ofNat 16 (w % 2 ^ nbits)).extractLsb' 0 8))

end Sys2Proof.Machine
end

