-- ==== Sys2Proof/Machine/Transactions.lean ====
section
/-! DEFINITION. The interface transactions through which the single host drives the core (spec/00_scope.md R3, R5;
spec/60_exceptions.md R260–R280; spec/70_reset_and_hazards.md R290–R292). Each is atomic, and no two overlap: a run is a list of
them (R66, R115). `step` itself is Step.lean's. -/

namespace Sys2Proof.Machine

/-! ### Construction and ROM load -/

/-- `construct(Q, FONT_BASE, LOW_MEMORY_IMAGE)`: the values of R40 with these arguments (R271, R290). -/
def State.construct (q : Quirks) (font : Option Addr12) (low : Vector Byte 512) : State :=
  { State.reset with quirks := q, fontBase := font, mem := Memory.load [] 0 low.toList }

/-- `load_rom(bytes)`: the bytes to 0x200 and up, and no other state; a payload over 0xE00 bytes is rejected, none (R270,
D21). -/
def State.loadRom (s : State) (bytes : List Byte) : Option State :=
  if bytes.length ≤ Config.romWindow then some (s.setMem (s.mem.load Config.programBase bytes)) else none

/-! ### Timers and keys -/

/-- `if t > 0 then t <- t - 1` (R260). -/
def countDown (t : Byte) : Byte := if t = 0 then 0 else t - 1

/-- `tick_timers()`: both timers in one transaction, nothing else; a timer reaching zero raises nothing (R260, R258). -/
def State.tickTimers (s : State) : State := (s.setDt (countDown s.dt)).setSt (countDown s.st)

/-- `key_down(k)`: NEW is set on the key-down edge only; an index outside 0–15 is ignored (R263). -/
def State.keyDown (s : State) (k : Nat) : State :=
  if k < 16 then
    (s.setNewKey (if s.key.getD k false then s.newKey else s.newKey.setIfInBounds k true)).setKey
      (s.key.setIfInBounds k true)
  else s

/-- `key_up(k)`: NEW is not changed; an index outside 0–15 is ignored (R264). -/
def State.keyUp (s : State) (k : Nat) : State :=
  if k < 16 then s.setKey (s.key.setIfInBounds k false) else s

/-- `clear_newly_pressed()`: a duty of the host, the core never does it by itself (R265). -/
def State.clearNewlyPressed (s : State) : State := s.setNewKey (Vector.replicate 16 false)

/-- `read_frame_buffer()`: the 64×32 grid FB (R276). -/
def State.readFrameBuffer (s : State) : FrameBuffer := s.fb

/-! ### The session -/

/-- A constructed machine and whether it has taken a step: after the first step the interface refuses load_rom (R270,
R292). -/
structure Session where
  state : State
  stepped : Bool
  deriving DecidableEq, Repr

/-- What the host sends (R280); construction begins a session and is `Session.construct`. -/
inductive Transaction where
  | loadRom (bytes : List Byte)
  | step
  | tickTimers
  | keyDown (k : Nat)
  | keyUp (k : Nat)
  | clearNewlyPressed
  | readFrameBuffer
  deriving DecidableEq, Repr

/-- What the host gets back (R280). -/
inductive Reply where
  /-- nothing -/
  | nothing
  /-- the ROM was loaded -/
  | loaded
  /-- the ROM was rejected: over 0xE00 bytes, or offered after the first step; no state has changed (R270) -/
  | rejected
  /-- what the step returned -/
  | returned (r : Result)
  /-- the frame buffer -/
  | pixels (fb : FrameBuffer)
  deriving DecidableEq, Repr

/-- Construction: once per session (R271, R292). -/
def Session.construct (q : Quirks) (font : Option Addr12) (low : Vector Byte 512) : Session :=
  { state := State.construct q font low, stepped := false }

/-- One transaction: the session after it and what the host gets back (R280). -/
def transact (t : Transaction) (ses : Session) : Host.Outcome (Session × Reply) Fault Refusal :=
  match t with
  | .loadRom bytes =>
    .next (match ses.stepped, ses.state.loadRom bytes with
      | false, some s => ({ ses with state := s }, .loaded)
      | _, _ => (ses, .rejected))
  | .step =>
    match Sys2Proof.Machine.step ses.state with
    | .next s => .next ({ state := s, stepped := true }, .returned s.result)
    | .fault e => .fault e
    | .refused r => .refused r
  | .tickTimers => .next ({ ses with state := ses.state.tickTimers }, .nothing)
  | .keyDown k => .next ({ ses with state := ses.state.keyDown k }, .nothing)
  | .keyUp k => .next ({ ses with state := ses.state.keyUp k }, .nothing)
  | .clearNewlyPressed => .next ({ ses with state := ses.state.clearNewlyPressed }, .nothing)
  | .readFrameBuffer => .next (ses, .pixels ses.state.readFrameBuffer)

/-- A schedule of the host, in order, with every reply; any list is a schedule, so the interleaving of steps, ticks and
key events is free (R298, D42). -/
def runTransactions : List Transaction → Session → Host.Outcome (Session × List Reply) Fault Refusal
  | [], ses => .next (ses, [])
  | t :: ts, ses =>
    match transact t ses with
    | .next (ses', reply) =>
      match runTransactions ts ses' with
      | .next (ses'', replies) => .next (ses'', reply :: replies)
      | .fault e => .fault e
      | .refused r => .refused r
    | .fault e => .fault e
    | .refused r => .refused r

/-- One frame of the host's loop with these key events and IPF steps (R292, R7). -/
def frameSchedule (events : List Transaction) (ipf : Nat) : List Transaction :=
  .clearNewlyPressed :: events ++ List.replicate ipf .step ++ [.tickTimers, .readFrameBuffer]

end Sys2Proof.Machine
end

