-- ==== Sys2Proof/Safety.lean ====
section
/-! DEFINITION. The terms claims are stated in: the invariant of reachable states, what two states have in common (the frame of
an instruction), the errors, and the observable ends of a run. -/

namespace Sys2Proof.Machine

/-- What every reachable state satisfies: memory is in canonical form, PC and I are 12-bit values (spec/10_state.md R26, R28)
and so is every stack entry (R31). -/
structure State.Inv (s : State) : Prop where
  mem : s.mem.wf
  pc : s.pc.toNat < 4096
  i : s.i.toNat < 4096
  stack : ∀ j : Fin 16, s.stack[j].toNat < 4096

/-- The pieces of state an instruction may write beside the general registers, PC and the recorded result. -/
inductive Part where
  | index
  | stack
  | delay
  | sound
  | pixels
  | memory
  | draws
  deriving DecidableEq, Repr

/-- The piece of state is the same in both states; memory through the read of one byte at every address. -/
def Part.Same (s t : State) : Part → Prop
  | .index => t.i = s.i
  | .stack => t.sp = s.sp ∧ t.stack = s.stack
  | .delay => t.dt = s.dt
  | .sound => t.st = s.st
  | .pixels => t.fb = s.fb
  | .memory => ∀ a : Word, t.mem.read a = s.mem.read a
  | .draws => t.draws = s.draws

/-- The frame of an instruction from s to t: no register outside `regs` and no piece of state outside `parts` has changed,
and the key matrices and the construction arguments, which no instruction writes, have not changed (R20, R35, R36). PC and
the recorded result are stated apart. -/
structure Frame (s t : State) (regs : List Reg) (parts : List Part) : Prop where
  regs : ∀ r : Reg, r ∉ regs → t.getV r = s.getV r
  parts : ∀ p : Part, p ∉ parts → p.Same s t
  key : t.key = s.key
  newKey : t.newKey = s.newKey
  quirks : t.quirks = s.quirks
  fontBase : t.fontBase = s.fontBase

/-- The error e was raised from s, the state after the advance: PC is back at the address the instruction was fetched from,
2 below it modulo 4096, the result is Err(e), and nothing else has changed (spec/60_exceptions.md R252). -/
def Raises (s t : State) (e : Fault) : Prop :=
  t = { s with pc := t.pc, result := .err e } ∧ t.pc.toNat = (s.pc.toNat + 4094) % 4096

/-- The instruction names r as its destination register, or loads it in a block (R24, the rules of files 42 to 46). -/
def hasDest (i : Instr) (r : Reg) : Prop :=
  match i with
  | .ldImm x _ | .addImm x _ | .rnd x _ => r = x
  | .ldReg x _ | .orReg x _ | .andReg x _ | .xorReg x _ | .addReg x _ | .sub x _ | .shr x _ | .subn x _ | .shl x _ => r = x
  | .ldVxDT x | .ldVxK x => r = x
  | .loadRegs x => r ≤ x
  | .cls | .ret | .jp _ | .call _ | .ldI _ | .jpV0 _ => False
  | .seImm _ _ | .sneImm _ _ | .seReg _ _ | .sneReg _ _ | .drw _ _ _ => False
  | .skp _ | .sknp _ | .ldDTVx _ | .ldSTVx _ | .addI _ | .ldF _ | .ldB _ | .storeRegs _ => False

/-- The instruction writes VF as a side effect: the table of R24. -/
def setsFlag (q : Quirks) (i : Instr) : Prop :=
  match i with
  | .orReg _ _ | .andReg _ _ | .xorReg _ _ => q.logicClearsVf = true
  | .addReg _ _ | .sub _ _ | .subn _ _ | .shr _ _ | .shl _ _ | .drw _ _ _ => True
  | .cls | .ret | .jp _ | .call _ | .ldI _ | .jpV0 _ | .rnd _ _ => False
  | .seImm _ _ | .sneImm _ _ | .seReg _ _ | .sneReg _ _ | .ldImm _ _ | .addImm _ _ | .ldReg _ _ => False
  | .skp _ | .sknp _ | .ldVxDT _ | .ldVxK _ | .ldDTVx _ | .ldSTVx _ | .addI _ | .ldF _ | .ldB _ => False
  | .storeRegs _ | .loadRegs _ => False

/-- Drawing n rows at (Vx, Vy) XORs the pixel in column c and row r: some sprite bit that is 1 is placed there (R230, R231;
sprite row j is the byte at I + j, bit 7 its column 0). -/
def State.Touched (s : State) (x y : Reg) (n : Nibble) (c : Fin 64) (r : Fin 32) : Prop :=
  ∃ j k : Nat, j < n.toNat ∧ k < 8 ∧ (s.mem.read (blockAddr s.i j)).getLsbD (7 - k) = true ∧
    if s.quirks.clip then (s.getV x).toNat + k = c.val ∧ (s.getV y).toNat + j = r.val
    else ((s.getV x).toNat + k) % 64 = c.val ∧ ((s.getV y).toNat + j) % 32 = r.val

/-- The word at PC is a jump to PC itself, the fixed point that a claim may name as the end of a run
(spec/40_execution_cycle.md R118 (b)). -/
def State.AtSelfJump (s : State) : Prop :=
  ∃ nnn : Addr12, decode s.fetchWord = .ok (.jp nnn) ∧ nnn.toNat = s.pc.toNat

/-- The latest step returned an error, the other observable end of a run (R118 (a)). -/
def State.Errored (s : State) : Prop := ∃ e, s.result = .err e

/-- A safe run of n steps: none of them returned an error. -/
def State.SafeFor : Nat → State → Prop
  | 0, _ => True
  | n + 1, s => ∃ t, step s = .next t ∧ t.result = .ok ∧ State.SafeFor n t

end Sys2Proof.Machine
end

