-- ==== Sys2Proof/Certificates/Slice0/Obligations.lean ====
section
/-! DEFINITION. The statements about the machine, from the numbered rules of spec/. In a statement about `exec`, `s` is the
state after the advance, so `s.pc` is `(A + 2) & 0xFFF` (R29), and every completion says what `exec` answers, PC, the result Ok
and the frame. Rules the spec marks as its own decision D<n> are named as such in the docstring. -/

open Sys2Proof Sys2Proof.Machine

/-! ### Encoding -/

/-- Words the spec itself spells out decode to their instructions, at least one of each leading nibble, and words it calls
UnknownOpcode are rejected (95_test_vectors.md sections 1 and 2.1 to 2.8; most patterns are its general knowledge GK1, log
entry 9). -/
def Obligations.SampleWordsDecode : Prop :=
  decode 0x00E0 = .ok .cls ∧ decode 0x00EE = .ok .ret ∧ decode 0x1ABC = .ok (.jp 0xABC) ∧
    decode 0x2300 = .ok (.call 0x300) ∧ decode 0x3310 = .ok (.seImm 3 0x10) ∧ decode 0x4310 = .ok (.sneImm 3 0x10) ∧
    decode 0x5120 = .ok (.seReg 1 2) ∧ decode 0x6001 = .ok (.ldImm 0 0x01) ∧ decode 0x6105 = .ok (.ldImm 1 0x05) ∧
    decode 0x7001 = .ok (.addImm 0 0x01) ∧ decode 0x8014 = .ok (.addReg 0 1) ∧ decode 0x800E = .ok (.shl 0 0) ∧
    decode 0x9AB0 = .ok (.sneReg 10 11) ∧ decode 0xA123 = .ok (.ldI 0x123) ∧ decode 0xB300 = .ok (.jpV0 0x300) ∧
    decode 0xC30F = .ok (.rnd 3 0x0F) ∧ decode 0xD5A3 = .ok (.drw 5 10 3) ∧ decode 0xD010 = .ok (.drw 0 1 0) ∧
    decode 0xE09E = .ok (.skp 0) ∧ decode 0xF355 = .ok (.storeRegs 3) ∧
    decode 0x0000 = .error (.unknownOpcode 0x0000) ∧ decode 0x00E1 = .error (.unknownOpcode 0x00E1) ∧
    decode 0x0123 = .error (.unknownOpcode 0x0123) ∧ decode 0x5121 = .error (.unknownOpcode 0x5121) ∧
    decode 0x9AB8 = .error (.unknownOpcode 0x9AB8) ∧ decode 0x800F = .error (.unknownOpcode 0x800F) ∧
    decode 0x8008 = .error (.unknownOpcode 0x8008) ∧ decode 0xE09F = .error (.unknownOpcode 0xE09F) ∧
    decode 0xFFFF = .error (.unknownOpcode 0xFFFF)

/-- Decoding the encoded instruction gives it back, from its word and from its two bytes at the head of any bytes, for
every instruction and every operand value. -/
def Obligations.DecodeOfEncode : Prop :=
  ∀ (i : Instr) (rest : List Byte),
    decode i.encode = .ok i ∧ decodeBytes (bytesOfWord i.encode ++ rest) = .ok (i, rest)

/-- Every word has one meaning: a word that decodes to an instruction is that instruction's word. -/
def Obligations.EncodeOfDecode : Prop :=
  ∀ (w : Word) (i : Instr), decode w = .ok i → i.encode = w

/-- No word lies in two rows of the opcode map. -/
def Obligations.OpcodeRowsDisjoint : Prop :=
  ∀ (w : Word) (j k : Nat) (r r' : OpcodeRow), opcodeRows[j]? = some r → opcodeRows[k]? = some r' →
    r.covers w = true → r'.covers w = true → j = k

/-- A word of a row decodes to an instruction of that row, and a word of no row is rejected. -/
def Obligations.DecodeFollowsRows : Prop :=
  ∀ w : Word,
    (∀ r ∈ opcodeRows, r.covers w = true → ∃ i, decode w = .ok i ∧ opcodeRows[i.rowIndex]? = some r) ∧
    ((∀ r ∈ opcodeRows, r.covers w = false) → decode w = .error (.unknownOpcode w))

/-- The quirk record packs to five bits in the order of R21, bits 7:5 zero, and unpacks to itself. -/
def Obligations.QuirksPackInFiveBits : Prop :=
  ∀ q : Quirks, q.pack.toNat = q.shiftVy.toNat + 2 * q.jumpVx.toNat + 4 * q.logicClearsVf.toNat +
      8 * q.indexIncrement.toNat + 16 * q.clip.toNat ∧ Quirks.unpack q.pack = q

/-! ### The step -/

/-- The fetch reads the byte at PC as bits 15:8 and the byte at the next address modulo 4096 as bits 7:0. -/
def Obligations.FetchIsBigEndian : Prop :=
  ∀ s : State, s.fetchWord.toNat =
    256 * (s.mem.read s.pc).toNat + (s.mem.read (BitVec.ofNat 16 ((s.pc.toNat + 1) % 4096))).toNat

/-- When the word at PC decodes to an instruction, the step is that instruction's meaning on the state whose PC has advanced
by 2 modulo 4096, and it returns Ok unless that meaning raised; when no row matches, or the instruction is one this machine
does not have, the step raises UnknownOpcode. The model decodes FX29 on every machine and raises UnknownOpcode in its meaning
where FONT_BASE is none (log entry 2), and an error is a next state (log entry 3). -/
def Obligations.StepRunsDecoded : Prop :=
  ∀ (s a : State) (w : Word),
    w.toNat = 256 * (s.mem.read s.pc).toNat + (s.mem.read (BitVec.ofNat 16 ((s.pc.toNat + 1) % 4096))).toNat →
    a = { s with pc := BitVec.ofNat 16 ((s.pc.toNat + 2) % 4096) } →
    (∀ i : Instr, decode w = .ok i →
      step s = exec i a ∧ ∃ t, step s = .next t ∧ (t.result = .ok ∨ ∃ e, Raises a t e)) ∧
    (∀ i : Instr, decode w = .ok i → i.wellFormed s.fontBase = false → ∃ t, step s = .next t ∧ Raises a t .unknownOpcode) ∧
    (∀ e : DecodeError, decode w = .error e → ∃ t, step s = .next t ∧ Raises a t .unknownOpcode)

/-- Every step answers a next state; it returns Ok, or Err(e) with nothing else changed (D5; the result is recorded in the
model's own field, log entry 3). -/
def Obligations.ErrorsArePrecise : Prop :=
  ∀ s : State, s.pc.toNat < 4096 →
    ∃ t, step s = .next t ∧ (t.result = .ok ∨ ∃ e, t = { s with result := .err e })

/-- Exactly which steps raise which of the three errors, and that PC is then the address of the failing instruction and
memory is unchanged (D5, D8; that FX29 is decoded on every machine is log entry 2, the recorded result log entry 3). -/
def Obligations.ErrorKinds : Prop :=
  ∀ s t : State, step s = .next t →
    (t.result = .err .stackOverflow ↔ (∃ nnn, decode s.fetchWord = .ok (.call nnn)) ∧ s.sp.val = 16) ∧
    (t.result = .err .stackUnderflow ↔ decode s.fetchWord = .ok .ret ∧ s.sp.val = 0) ∧
    (t.result = .err .unknownOpcode ↔
      decode s.fetchWord = .error (.unknownOpcode s.fetchWord) ∨
        (∃ x, decode s.fetchWord = .ok (.ldF x)) ∧ s.fontBase = none) ∧
    (t.result ≠ .ok → t.pc.toNat = s.pc.toNat % 4096 ∧ t.mem = s.mem)

/-- After an error a further step raises the same error again and changes nothing (a consequence the spec derives in 40_execution_cycle.md). -/
def Obligations.ErrorRepeats : Prop :=
  ∀ (s t : State) (e : Fault), s.pc.toNat < 4096 → step s = .next t → t.result = .err e → step t = .next t

/-- Two zero bytes at PC are UnknownOpcode (a consequence the spec derives in 40_execution_cycle.md). -/
def Obligations.ZeroWordIsUnknown : Prop :=
  ∀ s : State, s.pc.toNat < 4096 → s.mem.read s.pc = 0 → s.mem.read (s.pc + 1) = 0 →
    step s = .next { s with result := .err .unknownOpcode }

/-- A jump to itself is a fixed point of the step. -/
def Obligations.SelfJumpIsFixed : Prop :=
  ∀ s : State, s.AtSelfJump → step s = .next { s with result := .ok }

/-! ### Invariants -/

/-- Every step keeps memory canonical and PC, I and the stack entries 12-bit values. -/
def Obligations.StepKeepsInv : Prop :=
  ∀ s t : State, s.Inv → step s = .next t → t.Inv

/-- So does every transaction of the host. -/
def Obligations.TransactionsKeepInv : Prop :=
  ∀ (tx : Transaction) (ses ses' : Session) (reply : Reply), ses.state.Inv →
    transact tx ses = .next (ses', reply) → ses'.state.Inv

/-- The state after reset, and after construction with any arguments, satisfies the invariant. -/
def Obligations.ResetHasInv : Prop :=
  State.reset.Inv ∧ ∀ (q : Quirks) (font : Option Addr12) (low : Vector Byte 512), (State.construct q font low).Inv

/-- No step changes the quirk record, FONT_BASE, the key-down matrix or the newly-pressed matrix. -/
def Obligations.StepLeavesKeysAndQuirks : Prop :=
  ∀ s t : State, step s = .next t →
    t.quirks = s.quirks ∧ t.fontBase = s.fontBase ∧ t.key = s.key ∧ t.newKey = s.newKey

/-- Which instructions write each piece of state: I, the stack, DT, ST, the frame buffer, memory, and the model's own draw
counter (log entry 4). In particular no instruction counts a timer down. -/
def Obligations.WritersOfEachPart : Prop :=
  ∀ (i : Instr) (s t : State), exec i s = .next t →
    (t.i ≠ s.i → (∃ nnn, i = .ldI nnn) ∨
      ∃ x, i = .addI x ∨ i = .ldF x ∨ (i = .storeRegs x ∨ i = .loadRegs x) ∧ s.quirks.indexIncrement = true) ∧
    (t.sp ≠ s.sp → i = .ret ∨ ∃ nnn, i = .call nnn) ∧
    (t.stack ≠ s.stack → ∃ nnn, i = .call nnn) ∧
    (t.dt ≠ s.dt → ∃ x, i = .ldDTVx x) ∧
    (t.st ≠ s.st → ∃ x, i = .ldSTVx x) ∧
    (t.fb ≠ s.fb → i = .cls ∨ ∃ x y n, i = .drw x y n) ∧
    ((∃ a, t.mem.read a ≠ s.mem.read a) → ∃ x, i = .storeRegs x ∨ i = .ldB x) ∧
    (t.draws ≠ s.draws → ∃ x nn, i = .rnd x nn)

/-- A register changes only where the instruction names it as its destination, or where it is VF and the instruction writes
a flag. -/
def Obligations.WritersOfRegisters : Prop :=
  ∀ (i : Instr) (s t : State) (r : Reg), exec i s = .next t → t.getV r ≠ s.getV r →
    hasDest i r ∨ r = vF ∧ setsFlag s.quirks i

/-! ### Construction -/

/-- The values at construction: everything zero but PC = 0x200, the low memory image and the construction arguments. -/
def Obligations.ConstructionValues : Prop :=
  ∀ (q : Quirks) (font : Option Addr12) (low : Vector Byte 512) (s : State), s = State.construct q font low →
    (∀ x, s.getV x = 0) ∧ s.i = 0 ∧ s.pc = 0x200 ∧ s.sp.val = 0 ∧ (∀ j : Fin 16, s.stack[j] = 0) ∧ s.dt = 0 ∧ s.st = 0 ∧
    (∀ c r, s.fb.pixel c r = false) ∧ (∀ k : Fin 16, s.key[k] = false) ∧ (∀ k : Fin 16, s.newKey[k] = false) ∧
    (∀ a : Word, a.toNat < 4096 → s.mem.read a = low.toList.getD a.toNat 0) ∧ s.quirks = q ∧ s.fontBase = font

/-- The reset state is construction with this hardware's all-zero low memory image and its own Q and FONT_BASE, which the
spec leaves OPEN (log entries 1 and 2). -/
def Obligations.ResetIsConstruction : Prop :=
  State.reset = State.construct Config.quirks Config.fontBase (Vector.replicate 512 0)

/-! ### Control flow -/

/-- JP. -/
def Obligations.JumpSetsPc : Prop :=
  ∀ (nnn : Addr12) (s : State), ∃ t, exec (.jp nnn) s = .next t ∧ t.pc.toNat = nnn.toNat ∧ t.result = .ok ∧
    Frame s t [] []

/-- CALL below depth 16 pushes PC and jumps; at depth 16 it raises StackOverflow (SP as a count is the spec's decision
D10). -/
def Obligations.CallPushesOrOverflows : Prop :=
  ∀ (nnn : Addr12) (s : State),
    (s.sp.val < 16 → ∃ t, exec (.call nnn) s = .next t ∧ t.pc.toNat = nnn.toNat ∧ t.sp.val = s.sp.val + 1 ∧
      (∀ j : Fin 16, t.stack[j] = if j.val = s.sp.val then s.pc else s.stack[j]) ∧ t.result = .ok ∧
      Frame s t [] [.stack]) ∧
    (s.sp.val = 16 → ∃ t, exec (.call nnn) s = .next t ∧ Raises s t .stackOverflow)

/-- RET above depth 0 pops PC, masked to 12 bits, and leaves the stack entries; at depth 0 it raises StackUnderflow (D10). -/
def Obligations.ReturnPopsOrUnderflows : Prop :=
  ∀ s : State,
    (∀ j : Fin 16, s.sp.val = j.val + 1 → ∃ t, exec .ret s = .next t ∧ t.pc.toNat = s.stack[j].toNat % 4096 ∧
      t.sp.val = j.val ∧ t.stack = s.stack ∧ t.result = .ok ∧ Frame s t [] [.stack]) ∧
    (s.sp.val = 0 → ∃ t, exec .ret s = .next t ∧ Raises s t .stackUnderflow)

/-- CALL then RET, with any code between them that leaves SP and the pushed entry as the CALL left them (nested calls that
have returned among it), returns to the instruction after the CALL (a consequence the spec derives in 41_control_flow.md). -/
def Obligations.CallThenReturn : Prop :=
  ∀ (nnn : Addr12) (s : State), s.sp.val < 16 → s.pc.toNat < 4096 →
    ∃ t, exec (.call nnn) s = .next t ∧
      ∀ t' : State, t'.sp = t.sp → (∀ j : Fin 16, j.val = s.sp.val → t'.stack[j] = t.stack[j]) →
        ∃ u, exec .ret t' = .next u ∧ u.pc = s.pc ∧ u.sp = s.sp ∧ u.result = .ok

/-- SE and SNE with an immediate. -/
def Obligations.SkipOnImmediate : Prop :=
  ∀ (x : Reg) (nn : Byte) (s : State),
    (∃ t, exec (.seImm x nn) s = .next t ∧
      t.pc.toNat = (if s.getV x = nn then (s.pc.toNat + 2) % 4096 else s.pc.toNat) ∧ t.result = .ok ∧ Frame s t [] []) ∧
    (∃ t, exec (.sneImm x nn) s = .next t ∧
      t.pc.toNat = (if s.getV x ≠ nn then (s.pc.toNat + 2) % 4096 else s.pc.toNat) ∧ t.result = .ok ∧ Frame s t [] [])

/-- SE and SNE with a register. -/
def Obligations.SkipOnRegisters : Prop :=
  ∀ (x y : Reg) (s : State),
    (∃ t, exec (.seReg x y) s = .next t ∧
      t.pc.toNat = (if s.getV x = s.getV y then (s.pc.toNat + 2) % 4096 else s.pc.toNat) ∧ t.result = .ok ∧
      Frame s t [] []) ∧
    (∃ t, exec (.sneReg x y) s = .next t ∧
      t.pc.toNat = (if s.getV x ≠ s.getV y then (s.pc.toNat + 2) % 4096 else s.pc.toNat) ∧ t.result = .ok ∧
      Frame s t [] [])

/-! ### Registers and the ALU -/

/-- LD Vx, nn. -/
def Obligations.LoadImmediate : Prop :=
  ∀ (x : Reg) (nn : Byte) (s : State), ∃ t, exec (.ldImm x nn) s = .next t ∧ t.getV x = nn ∧ t.pc = s.pc ∧
    t.result = .ok ∧ Frame s t [x] []

/-- ADD Vx, nn wraps mod 256 and writes no flag: VF is in the frame unless x = F. -/
def Obligations.AddImmediate : Prop :=
  ∀ (x : Reg) (nn : Byte) (s : State), ∃ t, exec (.addImm x nn) s = .next t ∧
    (t.getV x).toNat = ((s.getV x).toNat + nn.toNat) % 256 ∧ t.pc = s.pc ∧ t.result = .ok ∧ Frame s t [x] []

/-- LD Vx, Vy. -/
def Obligations.CopyRegister : Prop :=
  ∀ (x y : Reg) (s : State), ∃ t, exec (.ldReg x y) s = .next t ∧ t.getV x = s.getV y ∧ t.pc = s.pc ∧
    t.result = .ok ∧ Frame s t [x] []

/-- OR, AND and XOR: Vx is written first, then VF becomes 0 under Q.logic_clears_vf and is otherwise left alone. -/
def Obligations.LogicOperations : Prop :=
  ∀ (x y : Reg) (s : State),
    (∃ t, exec (.orReg x y) s = .next t ∧
      (∀ r, t.getV r = if s.quirks.logicClearsVf = true ∧ r = vF then 0
        else if r = x then s.getV x ||| s.getV y else s.getV r) ∧
      t.pc = s.pc ∧ t.result = .ok ∧ Frame s t [x, vF] []) ∧
    (∃ t, exec (.andReg x y) s = .next t ∧
      (∀ r, t.getV r = if s.quirks.logicClearsVf = true ∧ r = vF then 0
        else if r = x then s.getV x &&& s.getV y else s.getV r) ∧
      t.pc = s.pc ∧ t.result = .ok ∧ Frame s t [x, vF] []) ∧
    (∃ t, exec (.xorReg x y) s = .next t ∧
      (∀ r, t.getV r = if s.quirks.logicClearsVf = true ∧ r = vF then 0
        else if r = x then s.getV x ^^^ s.getV y else s.getV r) ∧
      t.pc = s.pc ∧ t.result = .ok ∧ Frame s t [x, vF] [])

/-- ADD Vx, Vy: the sum mod 256, and the carry to VF last (the write order is the spec's decision D13). -/
def Obligations.AddRegisters : Prop :=
  ∀ (x y : Reg) (s : State), ∃ t, exec (.addReg x y) s = .next t ∧
    (∀ r, (t.getV r).toNat =
      if r = vF then (if (s.getV x).toNat + (s.getV y).toNat > 255 then 1 else 0)
      else if r = x then ((s.getV x).toNat + (s.getV y).toNat) % 256 else (s.getV r).toNat) ∧
    t.pc = s.pc ∧ t.result = .ok ∧ Frame s t [x, vF] []

/-- SUB and SUBN: the difference mod 256, and NOT-borrow to VF last (D13; which word is which is the spec's general
knowledge GK5). -/
def Obligations.SubtractRegisters : Prop :=
  ∀ (x y : Reg) (s : State),
    (∃ t, exec (.sub x y) s = .next t ∧
      (∀ r, (t.getV r).toNat =
        if r = vF then (if (s.getV x).toNat ≥ (s.getV y).toNat then 1 else 0)
        else if r = x then ((s.getV x).toNat + 256 - (s.getV y).toNat) % 256 else (s.getV r).toNat) ∧
      t.pc = s.pc ∧ t.result = .ok ∧ Frame s t [x, vF] []) ∧
    (∃ t, exec (.subn x y) s = .next t ∧
      (∀ r, (t.getV r).toNat =
        if r = vF then (if (s.getV y).toNat ≥ (s.getV x).toNat then 1 else 0)
        else if r = x then ((s.getV y).toNat + 256 - (s.getV x).toNat) % 256 else (s.getV r).toNat) ∧
      t.pc = s.pc ∧ t.result = .ok ∧ Frame s t [x, vF] [])

/-- SHR and SHL: one bit, of Vy under Q.shift_vy and of Vx otherwise, and the bit shifted out to VF last (D13). -/
def Obligations.ShiftByOne : Prop :=
  ∀ (x y : Reg) (s : State) (b : Nat), b = (if s.quirks.shiftVy then s.getV y else s.getV x).toNat →
    (∃ t, exec (.shr x y) s = .next t ∧
      (∀ r, (t.getV r).toNat = if r = vF then b % 2 else if r = x then b / 2 else (s.getV r).toNat) ∧
      t.pc = s.pc ∧ t.result = .ok ∧ Frame s t [x, vF] []) ∧
    (∃ t, exec (.shl x y) s = .next t ∧
      (∀ r, (t.getV r).toNat = if r = vF then b / 128 else if r = x then 2 * b % 256 else (s.getV r).toNat) ∧
      t.pc = s.pc ∧ t.result = .ok ∧ Frame s t [x, vF] [])

/-! ### Memory and index -/

/-- LD I, nnn and ADD I, Vx; neither writes VF (D15). -/
def Obligations.IndexWrites : Prop :=
  (∀ (nnn : Addr12) (s : State), ∃ t, exec (.ldI nnn) s = .next t ∧ t.i.toNat = nnn.toNat ∧ t.pc = s.pc ∧
    t.result = .ok ∧ Frame s t [] [.index]) ∧
  (∀ (x : Reg) (s : State), ∃ t, exec (.addI x) s = .next t ∧ t.i.toNat = (s.i.toNat + (s.getV x).toNat) % 4096 ∧
    t.pc = s.pc ∧ t.result = .ok ∧ Frame s t [] [.index])

/-- LD [I], Vx: register k goes to address I + k modulo 4096, every other byte is as before, and I advances by x + 1 under
Q.index_increment (D16). -/
def Obligations.BlockStore : Prop :=
  ∀ (x : Reg) (s : State), s.mem.wf → ∃ t, exec (.storeRegs x) s = .next t ∧
    (∀ k : Reg, k ≤ x → t.mem.read (blockAddr s.i k.val) = s.getV k) ∧
    (∀ a : Word, (∀ k : Reg, k ≤ x → mask12 a ≠ mask12 (blockAddr s.i k.val)) → t.mem.read a = s.mem.read a) ∧
    t.i.toNat = (if s.quirks.indexIncrement then (s.i.toNat + x.val + 1) % 4096 else s.i.toNat) ∧
    t.mem.wf ∧ t.pc = s.pc ∧ t.result = .ok ∧ Frame s t [] [.index, .memory]

/-- LD Vx, [I]: register k ≤ x takes the byte at address I + k modulo 4096, the others are left alone, and I advances by
x + 1 under Q.index_increment (D16). -/
def Obligations.BlockLoad : Prop :=
  ∀ (x : Reg) (s : State), ∃ t, exec (.loadRegs x) s = .next t ∧
    (∀ r : Reg, t.getV r = if r ≤ x then s.mem.read (blockAddr s.i r.val) else s.getV r) ∧
    t.i.toNat = (if s.quirks.indexIncrement then (s.i.toNat + x.val + 1) % 4096 else s.i.toNat) ∧
    t.pc = s.pc ∧ t.result = .ok ∧ Frame s t (List.finRange 16) [.index]

/-- Block store then block load with the same x: without Q.index_increment it restores V0..Vx, with it the load reads the
x + 1 bytes after those written (a consequence the spec derives in 43_memory_index.md). -/
def Obligations.StoreThenLoad : Prop :=
  ∀ (x : Reg) (s : State), s.mem.wf → ∃ t, exec (.storeRegs x) s = .next t ∧
    ∀ t' : State, t'.i = t.i → t'.mem = t.mem → t'.quirks = t.quirks → ∃ u, exec (.loadRegs x) t' = .next u ∧
      ∀ k : Reg, k ≤ x → u.getV k =
        if s.quirks.indexIncrement then s.mem.read (blockAddr s.i (x.val + 1 + k.val)) else s.getV k

/-- A stored word is what the next fetch of its address reads: no delay between a store and a fetch (D28). -/
def Obligations.StoreIsFetched : Prop :=
  ∀ (x : Reg) (s : State), s.mem.wf → 1 ≤ x → ∃ t, exec (.storeRegs x) s = .next t ∧
    ∀ t' : State, t'.mem = t.mem → t'.pc = s.i → t'.fetchWord.toNat = 256 * (s.getV 0).toNat + (s.getV 1).toNat

/-- LD F, Vx where FONT_BASE is some b; UnknownOpcode where it is none (FX29, its stride and its mask are the spec's general
knowledge GK7, and FONT_BASE is OPEN, log entry 2). -/
def Obligations.GlyphAddress : Prop :=
  ∀ (x : Reg) (s : State),
    (∀ b : Addr12, s.fontBase = some b → ∃ t, exec (.ldF x) s = .next t ∧
      t.i.toNat = (b.toNat + 5 * ((s.getV x).toNat % 16)) % 4096 ∧ t.pc = s.pc ∧ t.result = .ok ∧
      Frame s t [] [.index]) ∧
    (s.fontBase = none → ∃ t, exec (.ldF x) s = .next t ∧ Raises s t .unknownOpcode)

/-! ### Derived operations -/

/-- RND Vx, nn: the free value of this draw AND nn, and the next draw is a fresh one. The draw counter is the model's own
(log entry 4), and nothing is known of the value. -/
def Obligations.RandomMasked : Prop :=
  ∀ (x : Reg) (nn : Byte) (s : State), ∃ t, exec (.rnd x nn) s = .next t ∧
    t.getV x = Config.randomByte s.draws &&& nn ∧ t.draws = s.draws + 1 ∧ t.pc = s.pc ∧ t.result = .ok ∧
    Frame s t [x] [.draws]

/-- JP V0, nnn: the offset register is V0, or register nnn[11:8] under Q.jump_vx; the base is the full nnn (D12). -/
def Obligations.JumpWithOffset : Prop :=
  ∀ (nnn : Addr12) (s : State), ∃ t, exec (.jpV0 nnn) s = .next t ∧
    t.pc.toNat = (nnn.toNat +
      (s.getV (if s.quirks.jumpVx then Fin.ofNat 16 (nnn.toNat / 256) else 0)).toNat) % 4096 ∧
    t.result = .ok ∧ Frame s t [] []

/-- LD B, Vx: the three decimal digits at I, I + 1 and I + 2 modulo 4096, most significant first; every other byte and I are
as before. -/
def Obligations.DecimalStore : Prop :=
  ∀ (x : Reg) (s : State), s.mem.wf → ∃ t, exec (.ldB x) s = .next t ∧
    (t.mem.read s.i).toNat = (s.getV x).toNat / 100 ∧
    (t.mem.read (s.i + 1)).toNat = (s.getV x).toNat / 10 % 10 ∧
    (t.mem.read (s.i + 2)).toNat = (s.getV x).toNat % 10 ∧
    (∀ a : Word, mask12 a ≠ mask12 s.i → mask12 a ≠ mask12 (s.i + 1) → mask12 a ≠ mask12 (s.i + 2) →
      t.mem.read a = s.mem.read a) ∧
    t.mem.wf ∧ t.pc = s.pc ∧ t.result = .ok ∧ Frame s t [] [.memory]

/-! ### Timers and keys -/

/-- LD Vx, DT; LD DT, Vx; LD ST, Vx. -/
def Obligations.TimerMoves : Prop :=
  ∀ (x : Reg) (s : State),
    (∃ t, exec (.ldVxDT x) s = .next t ∧ t.getV x = s.dt ∧ t.pc = s.pc ∧ t.result = .ok ∧ Frame s t [x] []) ∧
    (∃ t, exec (.ldDTVx x) s = .next t ∧ t.dt = s.getV x ∧ t.pc = s.pc ∧ t.result = .ok ∧ Frame s t [] [.delay]) ∧
    (∃ t, exec (.ldSTVx x) s = .next t ∧ t.st = s.getV x ∧ t.pc = s.pc ∧ t.result = .ok ∧ Frame s t [] [.sound])

/-- SKP and SKNP: Vx names a key that is down, or it does not; a value of 16 or more names none, so SKNP skips
(the spec's own reading D17, log entry 9). -/
def Obligations.KeySkips : Prop :=
  ∀ (x : Reg) (s : State),
    ((∃ k : Fin 16, k.val = (s.getV x).toNat ∧ s.key[k] = true) →
      (∃ t, exec (.skp x) s = .next t ∧ t.pc.toNat = (s.pc.toNat + 2) % 4096 ∧ t.result = .ok ∧ Frame s t [] []) ∧
      (∃ t, exec (.sknp x) s = .next t ∧ t.pc = s.pc ∧ t.result = .ok ∧ Frame s t [] [])) ∧
    ((∀ k : Fin 16, k.val = (s.getV x).toNat → s.key[k] = false) →
      (∃ t, exec (.skp x) s = .next t ∧ t.pc = s.pc ∧ t.result = .ok ∧ Frame s t [] []) ∧
      (∃ t, exec (.sknp x) s = .next t ∧ t.pc.toNat = (s.pc.toNat + 2) % 4096 ∧ t.result = .ok ∧ Frame s t [] []))

/-- LD Vx, K: with a newly pressed key the lowest one goes to Vx; with none PC goes back by 2 and the result is Ok (D18). -/
def Obligations.KeyWait : Prop :=
  ∀ (x : Reg) (s : State),
    (∀ k : Fin 16, s.newKey[k] = true → (∀ j : Fin 16, j < k → s.newKey[j] = false) →
      ∃ t, exec (.ldVxK x) s = .next t ∧ (t.getV x).toNat = k.val ∧ t.pc = s.pc ∧ t.result = .ok ∧ Frame s t [x] []) ∧
    ((∀ k : Fin 16, s.newKey[k] = false) →
      ∃ t, exec (.ldVxK x) s = .next t ∧ t.pc.toNat = (s.pc.toNat + 4094) % 4096 ∧ t.result = .ok ∧ Frame s t [] [])

/-- A step of a waiting LD Vx, K changes no state (a consequence the spec derives in 45_timer_input.md). -/
def Obligations.WaitingStepIsFixed : Prop :=
  ∀ (x : Reg) (s : State), s.pc.toNat < 4096 → decode s.fetchWord = .ok (.ldVxK x) →
    (∀ k : Fin 16, s.newKey[k] = false) → step s = .next { s with result := .ok }

/-! ### Display -/

/-- DRW Vx, Vy, n inverts exactly the touched pixels and VF says whether one of them was lit before; I is not changed
(clipping without reducing the origin is the spec's decision D32, the bit order its general knowledge GK8). -/
def Obligations.DrawSprite : Prop :=
  ∀ (x y : Reg) (n : Nibble) (s : State), ∃ t, exec (.drw x y n) s = .next t ∧
    (∀ c r, s.Touched x y n c r → t.fb.pixel c r = !s.fb.pixel c r) ∧
    (∀ c r, ¬s.Touched x y n c r → t.fb.pixel c r = s.fb.pixel c r) ∧
    ((∃ c r, s.Touched x y n c r ∧ s.fb.pixel c r = true) → t.getV vF = 1) ∧
    ((∀ c r, s.Touched x y n c r → s.fb.pixel c r = false) → t.getV vF = 0) ∧
    t.pc = s.pc ∧ t.result = .ok ∧ Frame s t [vF] [.pixels]

/-- The same draw twice, with x and y not F, restores the frame buffer; the second VF is 1 exactly when some touched pixel
was unlit before the first (a consequence the spec derives in 46_display.md). -/
def Obligations.DrawTwiceRestores : Prop :=
  ∀ (x y : Reg) (n : Nibble) (s : State), x ≠ vF → y ≠ vF →
    ∃ t u, exec (.drw x y n) s = .next t ∧ exec (.drw x y n) t = .next u ∧ u.fb = s.fb ∧
      (u.getV vF = 1 ↔ ∃ c r, s.Touched x y n c r ∧ s.fb.pixel c r = false)

/-- CLS clears every pixel and leaves VF alone. -/
def Obligations.ClearScreen : Prop :=
  ∀ s : State, ∃ t, exec .cls s = .next t ∧ (∀ c r, t.fb.pixel c r = false) ∧ t.pc = s.pc ∧ t.result = .ok ∧
    Frame s t [] [.pixels]

/-! ### The host's transactions -/

/-- Every transaction is answered, in every session. -/
def Obligations.TransactionsAnswer : Prop :=
  ∀ (tx : Transaction) (ses : Session), ∃ ses' reply, transact tx ses = .next (ses', reply)

/-- The transaction tick_timers counts each timer down to zero, changes nothing else and replies nothing. -/
def Obligations.TickCountsDown : Prop :=
  ∀ ses : Session, ∃ s', transact .tickTimers ses = .next ({ ses with state := s' }, .nothing) ∧
    s'.dt.toNat = ses.state.dt.toNat - 1 ∧ s'.st.toNat = ses.state.st.toNat - 1 ∧
    s' = { ses.state with dt := s'.dt, st := s'.st }

/-- The transaction key_down sets KEY[k], and NEW[k] on the edge only; key_up clears KEY[k] only; an index outside 0–15 is
ignored; no other state changes and the reply is nothing (D20). -/
def Obligations.KeyEvents : Prop :=
  ∀ (k : Nat) (ses : Session),
    (∃ s', transact (.keyDown k) ses = .next ({ ses with state := s' }, .nothing) ∧
      (∀ j : Fin 16, s'.key[j] = (ses.state.key[j] || decide (j.val = k))) ∧
      (∀ j : Fin 16, s'.newKey[j] = (ses.state.newKey[j] || decide (j.val = k) && !ses.state.key[j])) ∧
      s' = { ses.state with key := s'.key, newKey := s'.newKey }) ∧
    (∃ s', transact (.keyUp k) ses = .next ({ ses with state := s' }, .nothing) ∧
      (∀ j : Fin 16, s'.key[j] = (ses.state.key[j] && !decide (j.val = k))) ∧
      s' = { ses.state with key := s'.key })

/-- clear_newly_pressed clears NEW and changes nothing else (that the host issues it is D19); read_frame_buffer returns FB and
changes nothing. -/
def Obligations.ClearAndRead : Prop :=
  ∀ ses : Session,
    (∃ s', transact .clearNewlyPressed ses = .next ({ ses with state := s' }, .nothing) ∧
      (∀ k : Fin 16, s'.newKey[k] = false) ∧ s' = { ses.state with newKey := s'.newKey }) ∧
    transact .readFrameBuffer ses = .next (ses, .pixels ses.state.fb)

/-- load_rom before the first step copies at most 0xE00 bytes to 0x200 and up and changes nothing else; a longer payload,
and a load in a session that has stepped, is rejected with nothing changed (D21). That the session remembers whether a step
was taken, and that it accepts a second load before the first step, are the model's (log entry 6). -/
def Obligations.RomLoad : Prop :=
  ∀ (bytes : List Byte) (ses : Session), ses.state.mem.wf →
    (ses.stepped = false → bytes.length ≤ 0xE00 → ∃ s',
      transact (.loadRom bytes) ses = .next ({ ses with state := s' }, .loaded) ∧
      (∀ a : Word, a.toNat < 4096 → s'.mem.read a =
        if 0x200 ≤ a.toNat ∧ a.toNat < 0x200 + bytes.length then bytes.getD (a.toNat - 0x200) 0
        else ses.state.mem.read a) ∧
      s' = { ses.state with mem := s'.mem }) ∧
    (ses.stepped = true ∨ bytes.length > 0xE00 → transact (.loadRom bytes) ses = .next (ses, .rejected))

/-- The transaction step runs one step, remembers that the session has stepped and replies what the step returned, Ok or
Err(E) (the recorded result and the memory of the session are the model's, log entries 3 and 6). -/
def Obligations.StepTransaction : Prop :=
  ∀ ses : Session, ∃ t, step ses.state = .next t ∧
    transact .step ses = .next ({ state := t, stepped := true }, .returned t.result)

/-- A session has stepped after a transaction exactly when it had before it or the transaction is a step (log entry 6). -/
def Obligations.SteppedIsRemembered : Prop :=
  ∀ (tx : Transaction) (ses ses' : Session) (reply : Reply), transact tx ses = .next (ses', reply) →
    (ses'.stepped = true ↔ ses.stepped = true ∨ tx = .step)

/-- After any schedule in which a step was taken, every load is rejected with nothing changed (log entry 6). -/
def Obligations.LateLoadIsRejected : Prop :=
  ∀ (txs : List Transaction) (ses ses' : Session) (replies : List Reply) (bytes : List Byte), .step ∈ txs →
    runTransactions txs ses = .next (ses', replies) → transact (.loadRom bytes) ses' = .next (ses', .rejected)
end

