-- ==== Sys2Proof/Laws/Decode.lean ====
section
/-! SUPPORT. The bits and fields of an encoded word (spec/30_encoding.md R81, R84) and what the masks of the opcode map keep
of it (R87): the facts that decoding and encoding rest on. -/

namespace Sys2Proof

@[simp] theorem regOf_ofFin (x : Reg) : regOf (BitVec.ofFin (w := 4) x) = x := rfl

/-! ### The bits of the formats -/

theorem getLsbD_wordNNN (op : Nibble) (nnn : Addr12) (i : Nat) :
    (wordNNN op nnn).getLsbD i = if i < 12 then nnn.getLsbD i else op.getLsbD (i - 12) :=
  BitVec.getLsbD_append (x := op) (y := nnn)

theorem getLsbD_wordXNN (op : Nibble) (x : Reg) (nn : Byte) (i : Nat) :
    (wordXNN op x nn).getLsbD i =
      if i < 8 then nn.getLsbD i
      else if i < 12 then (BitVec.ofFin (w := 4) x).getLsbD (i - 8) else op.getLsbD (i - 12) := by
  have h1 := BitVec.getLsbD_append (x := op ++ BitVec.ofFin (w := 4) x) (y := nn) (i := i)
  have h2 := BitVec.getLsbD_append (x := op) (y := BitVec.ofFin (w := 4) x) (i := i - 8)
  refine h1.trans ?_
  rw [h2]
  split
  · rfl
  · rw [Nat.sub_sub]
    congr 1
    exact propext (by omega)

theorem getLsbD_wordXYN (op : Nibble) (x y : Reg) (n : Nibble) (i : Nat) :
    (wordXYN op x y n).getLsbD i =
      if i < 4 then n.getLsbD i
      else if i < 8 then (BitVec.ofFin (w := 4) y).getLsbD (i - 4)
      else if i < 12 then (BitVec.ofFin (w := 4) x).getLsbD (i - 8) else op.getLsbD (i - 12) := by
  have h1 := BitVec.getLsbD_append (x := op ++ BitVec.ofFin (w := 4) x ++ BitVec.ofFin (w := 4) y) (y := n) (i := i)
  have h2 := BitVec.getLsbD_append (x := op ++ BitVec.ofFin (w := 4) x) (y := BitVec.ofFin (w := 4) y) (i := i - 4)
  have h3 := BitVec.getLsbD_append (x := op) (y := BitVec.ofFin (w := 4) x) (i := i - 8)
  refine h1.trans ?_
  rw [h2, Nat.sub_sub, h3, Nat.sub_sub]
  split
  · rfl
  · have e1 : (i - 4 < 4) = (i < 8) := propext (by omega)
    have e2 : (i - 8 < 4) = (i < 12) := propext (by omega)
    simp only [e1, e2]

/-! ### The fields of the formats -/

theorem fields_wordNNN (op : Nibble) (nnn : Addr12) :
    (fields (wordNNN op nnn)).op = op ∧ (fields (wordNNN op nnn)).nnn = nnn := by
  constructor <;>
  · apply BitVec.eq_of_getLsbD_eq
    intro i hi
    simp only [fields, BitVec.getLsbD_extractLsb', getLsbD_wordNNN]
    interval_cases i <;> simp

theorem fields_wordXNN (op : Nibble) (x : Reg) (nn : Byte) :
    (fields (wordXNN op x nn)).op = op ∧ (fields (wordXNN op x nn)).x = BitVec.ofFin x ∧
      (fields (wordXNN op x nn)).nn = nn := by
  refine ⟨?_, ?_, ?_⟩ <;>
  · apply BitVec.eq_of_getLsbD_eq
    intro i hi
    simp only [fields, BitVec.getLsbD_extractLsb', getLsbD_wordXNN]
    interval_cases i <;> simp

theorem fields_wordXYN (op : Nibble) (x y : Reg) (n : Nibble) :
    (fields (wordXYN op x y n)).op = op ∧ (fields (wordXYN op x y n)).x = BitVec.ofFin x ∧
      (fields (wordXYN op x y n)).y = BitVec.ofFin y ∧ (fields (wordXYN op x y n)).n = n := by
  refine ⟨?_, ?_, ?_, ?_⟩ <;>
  · apply BitVec.eq_of_getLsbD_eq
    intro i hi
    simp only [fields, BitVec.getLsbD_extractLsb', getLsbD_wordXYN]
    interval_cases i <;> simp

/-! ### What a mask keeps -/

theorem wordNNN_and_F000 (op : Nibble) (nnn : Addr12) : wordNNN op nnn &&& 0xF000 = wordNNN op 0 := by
  apply BitVec.eq_of_getLsbD_eq
  intro i hi
  simp only [BitVec.getLsbD_and, getLsbD_wordNNN]
  interval_cases i <;> simp

theorem wordXNN_and_F000 (op : Nibble) (x : Reg) (nn : Byte) : wordXNN op x nn &&& 0xF000 = wordXNN op 0 0 := by
  apply BitVec.eq_of_getLsbD_eq
  intro i hi
  simp only [BitVec.getLsbD_and, getLsbD_wordXNN]
  interval_cases i <;> simp

theorem wordXNN_and_F0FF (op : Nibble) (x : Reg) (nn : Byte) : wordXNN op x nn &&& 0xF0FF = wordXNN op 0 nn := by
  apply BitVec.eq_of_getLsbD_eq
  intro i hi
  simp only [BitVec.getLsbD_and, getLsbD_wordXNN]
  interval_cases i <;> simp

theorem wordXYN_and_F000 (op : Nibble) (x y : Reg) (n : Nibble) : wordXYN op x y n &&& 0xF000 = wordXYN op 0 0 0 := by
  apply BitVec.eq_of_getLsbD_eq
  intro i hi
  simp only [BitVec.getLsbD_and, getLsbD_wordXYN]
  interval_cases i <;> simp

theorem wordXYN_and_F00F (op : Nibble) (x y : Reg) (n : Nibble) : wordXYN op x y n &&& 0xF00F = wordXYN op 0 0 n := by
  apply BitVec.eq_of_getLsbD_eq
  intro i hi
  simp only [BitVec.getLsbD_and, getLsbD_wordXYN]
  interval_cases i <;> simp

end Sys2Proof
end

