-- ==== Sys2Proof/Laws/Memory.lean ====
section
/-! SUPPORT. The laws of memory: a read after a write, the canonical form, and the arithmetic of the 12-bit mask. -/

namespace Sys2Proof.Machine

/-! ### The mask -/

@[simp] theorem toNat_mask12 (a : Word) : (mask12 a).toNat = a.toNat % 4096 := by
  have h := Nat.and_two_pow_sub_one_eq_mod a.toNat 12
  simpa [mask12] using h

theorem mask12_lt (a : Word) : (mask12 a).toNat < 4096 := by
  rw [toNat_mask12]; exact Nat.mod_lt _ (by decide)

theorem mask12_of_lt {a : Word} (h : a.toNat < 4096) : mask12 a = a :=
  BitVec.eq_of_toNat_eq (by rw [toNat_mask12, Nat.mod_eq_of_lt h])

@[simp] theorem mask12_mask12 (a : Word) : mask12 (mask12 a) = mask12 a := mask12_of_lt (mask12_lt a)

/-- The rewind undoes the advance on a 12-bit PC. -/
theorem mask12_rewind_advance {a : Word} (h : a.toNat < 4096) : mask12 (mask12 (a + 2) - 2) = a := by
  apply BitVec.eq_of_toNat_eq
  simp [BitVec.toNat_sub, BitVec.toNat_add]
  omega

theorem wordOfAddr_lt (a : Addr12) : (wordOfAddr a).toNat < 4096 := by
  have := a.isLt
  simp [wordOfAddr]; omega

@[simp] theorem toNat_wordOfAddr (a : Addr12) : (wordOfAddr a).toNat = a.toNat := by
  have := a.isLt
  simp [wordOfAddr]; omega

@[simp] theorem toNat_wordOfByte (b : Byte) : (wordOfByte b).toNat = b.toNat := by
  have := b.isLt
  simp [wordOfByte]; omega

/-! ### Cells -/

/-- A write leaves every other address alone, whatever the form of the list. -/
theorem Memory.readCell_writeCell_ne (m : Memory) {a b : Nat} (v : Byte) (h : b ≠ a) :
    Memory.readCell (Memory.writeCell m a v) b = Memory.readCell m b := by
  induction m with
  | nil =>
    simp only [Memory.writeCell]
    split <;> simp [Memory.readCell, h.symm]
  | cons c rest ih =>
    obtain ⟨k, w⟩ := c
    simp only [Memory.writeCell]
    split
    · split <;> simp [Memory.readCell, h.symm]
    · split
      · subst_vars
        split <;> simp [Memory.readCell, h.symm]
      · simp [Memory.readCell, ih]

/-- An address below every listed one reads 0. -/
theorem Memory.readCell_eq_zero_of_lt {m : Memory} {a : Nat} (h : ∀ c ∈ m, a < c.1) : Memory.readCell m a = 0 := by
  induction m with
  | nil => rfl
  | cons c rest ih =>
    obtain ⟨k, w⟩ := c
    have hk : a < k := h (k, w) (by simp)
    simp [Memory.readCell, Nat.ne_of_gt hk, ih fun c hc => h c (by simp [hc])]

/-- In a canonical memory every address after the first is larger. -/
theorem Memory.wf_cons {k : Nat} {w : Byte} {rest : Memory} :
    Memory.wf ((k, w) :: rest) ↔ (∀ c ∈ rest, k < c.1) ∧ k < 4096 ∧ w ≠ 0 ∧ Memory.wf rest := by
  simp only [Memory.wf, List.map_cons, List.pairwise_cons, List.mem_cons, List.mem_map, forall_exists_index, and_imp,
    forall_eq_or_imp]
  constructor
  · rintro ⟨⟨h1, h2⟩, ⟨h3, h4⟩, h5⟩
    exact ⟨fun c hc => h1 c.1 c hc rfl, h3, h4, h2, h5⟩
  · rintro ⟨h1, h2, h3, h4, h5⟩
    exact ⟨⟨fun a c hc e => e ▸ h1 c hc, h4⟩, ⟨h2, h3⟩, h5⟩

/-- A read of the address just written gives the byte written. -/
theorem Memory.readCell_writeCell_self {m : Memory} (hm : m.wf) (a : Nat) (v : Byte) :
    Memory.readCell (Memory.writeCell m a v) a = v := by
  induction m with
  | nil =>
    simp only [Memory.writeCell]
    split <;> simp_all [Memory.readCell]
  | cons c rest ih =>
    obtain ⟨k, w⟩ := c
    rw [Memory.wf_cons] at hm
    obtain ⟨h1, -, -, h4⟩ := hm
    simp only [Memory.writeCell]
    split
    · rename_i hlt
      have hz : Memory.readCell ((k, w) :: rest) a = 0 :=
        Memory.readCell_eq_zero_of_lt (by
          intro c hc
          rcases List.mem_cons.mp hc with rfl | hc
          · exact hlt
          · exact Nat.lt_trans hlt (h1 c hc))
      split
      · rw [hz]; simp_all
      · simp [Memory.readCell]
    · split
      · subst_vars
        split
        · rw [Memory.readCell_eq_zero_of_lt h1]; simp_all
        · simp [Memory.readCell]
      · rename_i hne
        simp [Memory.readCell, Ne.symm hne, ih h4]

/-- The addresses of a written memory are the old ones and the written one. -/
theorem Memory.mem_writeCell {m : Memory} {a : Nat} {v : Byte} {c : Host.Cell} (h : c ∈ Memory.writeCell m a v) :
    c ∈ m ∨ c = (a, v) ∧ v ≠ 0 := by
  induction m with
  | nil =>
    simp only [Memory.writeCell] at h
    split at h <;> simp_all
  | cons d rest ih =>
    obtain ⟨k, w⟩ := d
    simp only [Memory.writeCell] at h
    split at h
    · split at h <;> simp_all
      tauto
    · split at h
      · split at h <;> simp_all
        tauto
      · rcases List.mem_cons.mp h with rfl | h
        · simp
        · rcases ih h with h | h
          · simp [h]
          · exact .inr h

/-- A write keeps the canonical form. -/
theorem Memory.writeCell_wf {m : Memory} (hm : m.wf) {a : Nat} (ha : a < 4096) (v : Byte) :
    Memory.wf (Memory.writeCell m a v) := by
  induction m with
  | nil =>
    simp only [Memory.writeCell]
    split
    · exact hm
    · rename_i hv
      exact Memory.wf_cons.mpr ⟨by simp, ha, hv, hm⟩
  | cons c rest ih =>
    obtain ⟨k, w⟩ := c
    have hm' := hm
    rw [Memory.wf_cons] at hm
    obtain ⟨h1, h2, h3, h4⟩ := hm
    simp only [Memory.writeCell]
    split
    · rename_i hlt
      split
      · exact hm'
      · rename_i hv
        refine Memory.wf_cons.mpr ⟨?_, ha, hv, hm'⟩
        intro c hc
        rcases List.mem_cons.mp hc with rfl | hc
        · exact hlt
        · exact Nat.lt_trans hlt (h1 c hc)
    · split
      · subst_vars
        split
        · exact h4
        · rename_i hv
          exact Memory.wf_cons.mpr ⟨h1, h2, hv, h4⟩
      · refine Memory.wf_cons.mpr ⟨?_, h2, h3, ih h4⟩
        intro c hc
        rcases Memory.mem_writeCell hc with hc | ⟨rfl, -⟩
        · exact h1 c hc
        · simp only; omega

/-! ### MemRead and MemWrite -/

/-- A read after a write (R11): every byte but the one written is as before, and that one is the byte written. -/
theorem Memory.read_write {m : Memory} (hm : m.wf) (a b : Word) (v : Byte) :
    (m.write a v).read b = if mask12 b = mask12 a then v else m.read b := by
  unfold Memory.read Memory.write
  split
  · rename_i h
    rw [h, Memory.readCell_writeCell_self hm]
  · rename_i h
    exact Memory.readCell_writeCell_ne m v fun e => h (BitVec.eq_of_toNat_eq e)

/-- A read sees its address modulo 4096 (R11, R65). -/
theorem Memory.read_congr (m : Memory) {a b : Word} (h : a.toNat % 4096 = b.toNat % 4096) : m.read a = m.read b := by
  unfold Memory.read; simp [h]

/-- A write leaves every byte at another address alone, whatever the form of the memory. -/
theorem Memory.read_write_ne (m : Memory) {a b : Word} (v : Byte) (h : mask12 b ≠ mask12 a) :
    (m.write a v).read b = m.read b :=
  Memory.readCell_writeCell_ne m v fun e => h (BitVec.eq_of_toNat_eq e)

/-- A write keeps the canonical form. -/
theorem Memory.write_wf {m : Memory} (hm : m.wf) (a : Word) (v : Byte) : (m.write a v).wf :=
  Memory.writeCell_wf hm (mask12_lt a) v

/-- A load that ends at or below 4096 keeps the canonical form. -/
theorem Memory.load_wf (bytes : List Byte) : ∀ {m : Memory} {base : Nat}, m.wf → base + bytes.length ≤ 4096 →
    (m.load base bytes).wf := by
  induction bytes with
  | nil => intro m base hm _; exact hm
  | cons b rest ih =>
    intro m base hm h
    simp only [List.length_cons] at h
    exact ih (Memory.writeCell_wf hm (by omega) b) (by omega)

/-- What a byte reads after a load: the loaded byte inside the loaded range, and the old one outside it. -/
theorem Memory.readCell_load (bytes : List Byte) : ∀ {m : Memory} {base : Nat} (a : Nat), m.wf →
    base + bytes.length ≤ 4096 →
    Memory.readCell (m.load base bytes) a =
      if base ≤ a ∧ a < base + bytes.length then bytes.getD (a - base) 0 else Memory.readCell m a := by
  induction bytes with
  | nil => intro m base a _ _; simp [Memory.load]
  | cons b rest ih =>
    intro m base a hm h
    simp only [List.length_cons] at h
    rw [Memory.load, ih a (Memory.writeCell_wf hm (by omega) b) (by omega)]
    by_cases hab : a = base
    · subst hab
      simp [Memory.readCell_writeCell_self hm]
    · rw [Memory.readCell_writeCell_ne m b hab]
      by_cases hr : base + 1 ≤ a ∧ a < base + 1 + rest.length
      · have h2 : base ≤ a ∧ a < base + (b :: rest).length := by simp; omega
        have h3 : a - base = (a - (base + 1)) + 1 := by omega
        rw [if_pos hr, if_pos h2, h3]; simp
      · have h2 : ¬(base ≤ a ∧ a < base + (b :: rest).length) := by simp; omega
        rw [if_neg hr, if_neg h2]

end Sys2Proof.Machine
end

