-- ==== Sys2Proof/Laws/State.lean ====
section
/-! SUPPORT. What each field of the state is after each named update: one lemma per field per update, so that no later proof
unfolds a record update. -/

namespace Sys2Proof.Machine

/-! ### The setters -/

@[simp] theorem State.setRegs_v (s : State) (a : Vector Byte 16) : (s.setRegs a).v = a := rfl
@[simp] theorem State.setRegs_i (s : State) (a : Vector Byte 16) : (s.setRegs a).i = s.i := rfl
@[simp] theorem State.setRegs_pc (s : State) (a : Vector Byte 16) : (s.setRegs a).pc = s.pc := rfl
@[simp] theorem State.setRegs_sp (s : State) (a : Vector Byte 16) : (s.setRegs a).sp = s.sp := rfl
@[simp] theorem State.setRegs_stack (s : State) (a : Vector Byte 16) : (s.setRegs a).stack = s.stack := rfl
@[simp] theorem State.setRegs_dt (s : State) (a : Vector Byte 16) : (s.setRegs a).dt = s.dt := rfl
@[simp] theorem State.setRegs_st (s : State) (a : Vector Byte 16) : (s.setRegs a).st = s.st := rfl
@[simp] theorem State.setRegs_fb (s : State) (a : Vector Byte 16) : (s.setRegs a).fb = s.fb := rfl
@[simp] theorem State.setRegs_key (s : State) (a : Vector Byte 16) : (s.setRegs a).key = s.key := rfl
@[simp] theorem State.setRegs_newKey (s : State) (a : Vector Byte 16) : (s.setRegs a).newKey = s.newKey := rfl
@[simp] theorem State.setRegs_mem (s : State) (a : Vector Byte 16) : (s.setRegs a).mem = s.mem := rfl
@[simp] theorem State.setRegs_quirks (s : State) (a : Vector Byte 16) : (s.setRegs a).quirks = s.quirks := rfl
@[simp] theorem State.setRegs_fontBase (s : State) (a : Vector Byte 16) : (s.setRegs a).fontBase = s.fontBase := rfl
@[simp] theorem State.setRegs_result (s : State) (a : Vector Byte 16) : (s.setRegs a).result = s.result := rfl
@[simp] theorem State.setRegs_draws (s : State) (a : Vector Byte 16) : (s.setRegs a).draws = s.draws := rfl

@[simp] theorem State.setI_v (s : State) (a : Word) : (s.setI a).v = s.v := rfl
@[simp] theorem State.setI_i (s : State) (a : Word) : (s.setI a).i = a := rfl
@[simp] theorem State.setI_pc (s : State) (a : Word) : (s.setI a).pc = s.pc := rfl
@[simp] theorem State.setI_sp (s : State) (a : Word) : (s.setI a).sp = s.sp := rfl
@[simp] theorem State.setI_stack (s : State) (a : Word) : (s.setI a).stack = s.stack := rfl
@[simp] theorem State.setI_dt (s : State) (a : Word) : (s.setI a).dt = s.dt := rfl
@[simp] theorem State.setI_st (s : State) (a : Word) : (s.setI a).st = s.st := rfl
@[simp] theorem State.setI_fb (s : State) (a : Word) : (s.setI a).fb = s.fb := rfl
@[simp] theorem State.setI_key (s : State) (a : Word) : (s.setI a).key = s.key := rfl
@[simp] theorem State.setI_newKey (s : State) (a : Word) : (s.setI a).newKey = s.newKey := rfl
@[simp] theorem State.setI_mem (s : State) (a : Word) : (s.setI a).mem = s.mem := rfl
@[simp] theorem State.setI_quirks (s : State) (a : Word) : (s.setI a).quirks = s.quirks := rfl
@[simp] theorem State.setI_fontBase (s : State) (a : Word) : (s.setI a).fontBase = s.fontBase := rfl
@[simp] theorem State.setI_result (s : State) (a : Word) : (s.setI a).result = s.result := rfl
@[simp] theorem State.setI_draws (s : State) (a : Word) : (s.setI a).draws = s.draws := rfl

@[simp] theorem State.setPc_v (s : State) (a : Word) : (s.setPc a).v = s.v := rfl
@[simp] theorem State.setPc_i (s : State) (a : Word) : (s.setPc a).i = s.i := rfl
@[simp] theorem State.setPc_pc (s : State) (a : Word) : (s.setPc a).pc = a := rfl
@[simp] theorem State.setPc_sp (s : State) (a : Word) : (s.setPc a).sp = s.sp := rfl
@[simp] theorem State.setPc_stack (s : State) (a : Word) : (s.setPc a).stack = s.stack := rfl
@[simp] theorem State.setPc_dt (s : State) (a : Word) : (s.setPc a).dt = s.dt := rfl
@[simp] theorem State.setPc_st (s : State) (a : Word) : (s.setPc a).st = s.st := rfl
@[simp] theorem State.setPc_fb (s : State) (a : Word) : (s.setPc a).fb = s.fb := rfl
@[simp] theorem State.setPc_key (s : State) (a : Word) : (s.setPc a).key = s.key := rfl
@[simp] theorem State.setPc_newKey (s : State) (a : Word) : (s.setPc a).newKey = s.newKey := rfl
@[simp] theorem State.setPc_mem (s : State) (a : Word) : (s.setPc a).mem = s.mem := rfl
@[simp] theorem State.setPc_quirks (s : State) (a : Word) : (s.setPc a).quirks = s.quirks := rfl
@[simp] theorem State.setPc_fontBase (s : State) (a : Word) : (s.setPc a).fontBase = s.fontBase := rfl
@[simp] theorem State.setPc_result (s : State) (a : Word) : (s.setPc a).result = s.result := rfl
@[simp] theorem State.setPc_draws (s : State) (a : Word) : (s.setPc a).draws = s.draws := rfl

@[simp] theorem State.setSp_v (s : State) (a : Fin 17) : (s.setSp a).v = s.v := rfl
@[simp] theorem State.setSp_i (s : State) (a : Fin 17) : (s.setSp a).i = s.i := rfl
@[simp] theorem State.setSp_pc (s : State) (a : Fin 17) : (s.setSp a).pc = s.pc := rfl
@[simp] theorem State.setSp_sp (s : State) (a : Fin 17) : (s.setSp a).sp = a := rfl
@[simp] theorem State.setSp_stack (s : State) (a : Fin 17) : (s.setSp a).stack = s.stack := rfl
@[simp] theorem State.setSp_dt (s : State) (a : Fin 17) : (s.setSp a).dt = s.dt := rfl
@[simp] theorem State.setSp_st (s : State) (a : Fin 17) : (s.setSp a).st = s.st := rfl
@[simp] theorem State.setSp_fb (s : State) (a : Fin 17) : (s.setSp a).fb = s.fb := rfl
@[simp] theorem State.setSp_key (s : State) (a : Fin 17) : (s.setSp a).key = s.key := rfl
@[simp] theorem State.setSp_newKey (s : State) (a : Fin 17) : (s.setSp a).newKey = s.newKey := rfl
@[simp] theorem State.setSp_mem (s : State) (a : Fin 17) : (s.setSp a).mem = s.mem := rfl
@[simp] theorem State.setSp_quirks (s : State) (a : Fin 17) : (s.setSp a).quirks = s.quirks := rfl
@[simp] theorem State.setSp_fontBase (s : State) (a : Fin 17) : (s.setSp a).fontBase = s.fontBase := rfl
@[simp] theorem State.setSp_result (s : State) (a : Fin 17) : (s.setSp a).result = s.result := rfl
@[simp] theorem State.setSp_draws (s : State) (a : Fin 17) : (s.setSp a).draws = s.draws := rfl

@[simp] theorem State.setStack_v (s : State) (a : Vector Word 16) : (s.setStack a).v = s.v := rfl
@[simp] theorem State.setStack_i (s : State) (a : Vector Word 16) : (s.setStack a).i = s.i := rfl
@[simp] theorem State.setStack_pc (s : State) (a : Vector Word 16) : (s.setStack a).pc = s.pc := rfl
@[simp] theorem State.setStack_sp (s : State) (a : Vector Word 16) : (s.setStack a).sp = s.sp := rfl
@[simp] theorem State.setStack_stack (s : State) (a : Vector Word 16) : (s.setStack a).stack = a := rfl
@[simp] theorem State.setStack_dt (s : State) (a : Vector Word 16) : (s.setStack a).dt = s.dt := rfl
@[simp] theorem State.setStack_st (s : State) (a : Vector Word 16) : (s.setStack a).st = s.st := rfl
@[simp] theorem State.setStack_fb (s : State) (a : Vector Word 16) : (s.setStack a).fb = s.fb := rfl
@[simp] theorem State.setStack_key (s : State) (a : Vector Word 16) : (s.setStack a).key = s.key := rfl
@[simp] theorem State.setStack_newKey (s : State) (a : Vector Word 16) : (s.setStack a).newKey = s.newKey := rfl
@[simp] theorem State.setStack_mem (s : State) (a : Vector Word 16) : (s.setStack a).mem = s.mem := rfl
@[simp] theorem State.setStack_quirks (s : State) (a : Vector Word 16) : (s.setStack a).quirks = s.quirks := rfl
@[simp] theorem State.setStack_fontBase (s : State) (a : Vector Word 16) : (s.setStack a).fontBase = s.fontBase := rfl
@[simp] theorem State.setStack_result (s : State) (a : Vector Word 16) : (s.setStack a).result = s.result := rfl
@[simp] theorem State.setStack_draws (s : State) (a : Vector Word 16) : (s.setStack a).draws = s.draws := rfl

@[simp] theorem State.setDt_v (s : State) (a : Byte) : (s.setDt a).v = s.v := rfl
@[simp] theorem State.setDt_i (s : State) (a : Byte) : (s.setDt a).i = s.i := rfl
@[simp] theorem State.setDt_pc (s : State) (a : Byte) : (s.setDt a).pc = s.pc := rfl
@[simp] theorem State.setDt_sp (s : State) (a : Byte) : (s.setDt a).sp = s.sp := rfl
@[simp] theorem State.setDt_stack (s : State) (a : Byte) : (s.setDt a).stack = s.stack := rfl
@[simp] theorem State.setDt_dt (s : State) (a : Byte) : (s.setDt a).dt = a := rfl
@[simp] theorem State.setDt_st (s : State) (a : Byte) : (s.setDt a).st = s.st := rfl
@[simp] theorem State.setDt_fb (s : State) (a : Byte) : (s.setDt a).fb = s.fb := rfl
@[simp] theorem State.setDt_key (s : State) (a : Byte) : (s.setDt a).key = s.key := rfl
@[simp] theorem State.setDt_newKey (s : State) (a : Byte) : (s.setDt a).newKey = s.newKey := rfl
@[simp] theorem State.setDt_mem (s : State) (a : Byte) : (s.setDt a).mem = s.mem := rfl
@[simp] theorem State.setDt_quirks (s : State) (a : Byte) : (s.setDt a).quirks = s.quirks := rfl
@[simp] theorem State.setDt_fontBase (s : State) (a : Byte) : (s.setDt a).fontBase = s.fontBase := rfl
@[simp] theorem State.setDt_result (s : State) (a : Byte) : (s.setDt a).result = s.result := rfl
@[simp] theorem State.setDt_draws (s : State) (a : Byte) : (s.setDt a).draws = s.draws := rfl

@[simp] theorem State.setSt_v (s : State) (a : Byte) : (s.setSt a).v = s.v := rfl
@[simp] theorem State.setSt_i (s : State) (a : Byte) : (s.setSt a).i = s.i := rfl
@[simp] theorem State.setSt_pc (s : State) (a : Byte) : (s.setSt a).pc = s.pc := rfl
@[simp] theorem State.setSt_sp (s : State) (a : Byte) : (s.setSt a).sp = s.sp := rfl
@[simp] theorem State.setSt_stack (s : State) (a : Byte) : (s.setSt a).stack = s.stack := rfl
@[simp] theorem State.setSt_dt (s : State) (a : Byte) : (s.setSt a).dt = s.dt := rfl
@[simp] theorem State.setSt_st (s : State) (a : Byte) : (s.setSt a).st = a := rfl
@[simp] theorem State.setSt_fb (s : State) (a : Byte) : (s.setSt a).fb = s.fb := rfl
@[simp] theorem State.setSt_key (s : State) (a : Byte) : (s.setSt a).key = s.key := rfl
@[simp] theorem State.setSt_newKey (s : State) (a : Byte) : (s.setSt a).newKey = s.newKey := rfl
@[simp] theorem State.setSt_mem (s : State) (a : Byte) : (s.setSt a).mem = s.mem := rfl
@[simp] theorem State.setSt_quirks (s : State) (a : Byte) : (s.setSt a).quirks = s.quirks := rfl
@[simp] theorem State.setSt_fontBase (s : State) (a : Byte) : (s.setSt a).fontBase = s.fontBase := rfl
@[simp] theorem State.setSt_result (s : State) (a : Byte) : (s.setSt a).result = s.result := rfl
@[simp] theorem State.setSt_draws (s : State) (a : Byte) : (s.setSt a).draws = s.draws := rfl

@[simp] theorem State.setFb_v (s : State) (a : FrameBuffer) : (s.setFb a).v = s.v := rfl
@[simp] theorem State.setFb_i (s : State) (a : FrameBuffer) : (s.setFb a).i = s.i := rfl
@[simp] theorem State.setFb_pc (s : State) (a : FrameBuffer) : (s.setFb a).pc = s.pc := rfl
@[simp] theorem State.setFb_sp (s : State) (a : FrameBuffer) : (s.setFb a).sp = s.sp := rfl
@[simp] theorem State.setFb_stack (s : State) (a : FrameBuffer) : (s.setFb a).stack = s.stack := rfl
@[simp] theorem State.setFb_dt (s : State) (a : FrameBuffer) : (s.setFb a).dt = s.dt := rfl
@[simp] theorem State.setFb_st (s : State) (a : FrameBuffer) : (s.setFb a).st = s.st := rfl
@[simp] theorem State.setFb_fb (s : State) (a : FrameBuffer) : (s.setFb a).fb = a := rfl
@[simp] theorem State.setFb_key (s : State) (a : FrameBuffer) : (s.setFb a).key = s.key := rfl
@[simp] theorem State.setFb_newKey (s : State) (a : FrameBuffer) : (s.setFb a).newKey = s.newKey := rfl
@[simp] theorem State.setFb_mem (s : State) (a : FrameBuffer) : (s.setFb a).mem = s.mem := rfl
@[simp] theorem State.setFb_quirks (s : State) (a : FrameBuffer) : (s.setFb a).quirks = s.quirks := rfl
@[simp] theorem State.setFb_fontBase (s : State) (a : FrameBuffer) : (s.setFb a).fontBase = s.fontBase := rfl
@[simp] theorem State.setFb_result (s : State) (a : FrameBuffer) : (s.setFb a).result = s.result := rfl
@[simp] theorem State.setFb_draws (s : State) (a : FrameBuffer) : (s.setFb a).draws = s.draws := rfl

@[simp] theorem State.setKey_v (s : State) (a : Vector Bool 16) : (s.setKey a).v = s.v := rfl
@[simp] theorem State.setKey_i (s : State) (a : Vector Bool 16) : (s.setKey a).i = s.i := rfl
@[simp] theorem State.setKey_pc (s : State) (a : Vector Bool 16) : (s.setKey a).pc = s.pc := rfl
@[simp] theorem State.setKey_sp (s : State) (a : Vector Bool 16) : (s.setKey a).sp = s.sp := rfl
@[simp] theorem State.setKey_stack (s : State) (a : Vector Bool 16) : (s.setKey a).stack = s.stack := rfl
@[simp] theorem State.setKey_dt (s : State) (a : Vector Bool 16) : (s.setKey a).dt = s.dt := rfl
@[simp] theorem State.setKey_st (s : State) (a : Vector Bool 16) : (s.setKey a).st = s.st := rfl
@[simp] theorem State.setKey_fb (s : State) (a : Vector Bool 16) : (s.setKey a).fb = s.fb := rfl
@[simp] theorem State.setKey_key (s : State) (a : Vector Bool 16) : (s.setKey a).key = a := rfl
@[simp] theorem State.setKey_newKey (s : State) (a : Vector Bool 16) : (s.setKey a).newKey = s.newKey := rfl
@[simp] theorem State.setKey_mem (s : State) (a : Vector Bool 16) : (s.setKey a).mem = s.mem := rfl
@[simp] theorem State.setKey_quirks (s : State) (a : Vector Bool 16) : (s.setKey a).quirks = s.quirks := rfl
@[simp] theorem State.setKey_fontBase (s : State) (a : Vector Bool 16) : (s.setKey a).fontBase = s.fontBase := rfl
@[simp] theorem State.setKey_result (s : State) (a : Vector Bool 16) : (s.setKey a).result = s.result := rfl
@[simp] theorem State.setKey_draws (s : State) (a : Vector Bool 16) : (s.setKey a).draws = s.draws := rfl

@[simp] theorem State.setNewKey_v (s : State) (a : Vector Bool 16) : (s.setNewKey a).v = s.v := rfl
@[simp] theorem State.setNewKey_i (s : State) (a : Vector Bool 16) : (s.setNewKey a).i = s.i := rfl
@[simp] theorem State.setNewKey_pc (s : State) (a : Vector Bool 16) : (s.setNewKey a).pc = s.pc := rfl
@[simp] theorem State.setNewKey_sp (s : State) (a : Vector Bool 16) : (s.setNewKey a).sp = s.sp := rfl
@[simp] theorem State.setNewKey_stack (s : State) (a : Vector Bool 16) : (s.setNewKey a).stack = s.stack := rfl
@[simp] theorem State.setNewKey_dt (s : State) (a : Vector Bool 16) : (s.setNewKey a).dt = s.dt := rfl
@[simp] theorem State.setNewKey_st (s : State) (a : Vector Bool 16) : (s.setNewKey a).st = s.st := rfl
@[simp] theorem State.setNewKey_fb (s : State) (a : Vector Bool 16) : (s.setNewKey a).fb = s.fb := rfl
@[simp] theorem State.setNewKey_key (s : State) (a : Vector Bool 16) : (s.setNewKey a).key = s.key := rfl
@[simp] theorem State.setNewKey_newKey (s : State) (a : Vector Bool 16) : (s.setNewKey a).newKey = a := rfl
@[simp] theorem State.setNewKey_mem (s : State) (a : Vector Bool 16) : (s.setNewKey a).mem = s.mem := rfl
@[simp] theorem State.setNewKey_quirks (s : State) (a : Vector Bool 16) : (s.setNewKey a).quirks = s.quirks := rfl
@[simp] theorem State.setNewKey_fontBase (s : State) (a : Vector Bool 16) : (s.setNewKey a).fontBase = s.fontBase := rfl
@[simp] theorem State.setNewKey_result (s : State) (a : Vector Bool 16) : (s.setNewKey a).result = s.result := rfl
@[simp] theorem State.setNewKey_draws (s : State) (a : Vector Bool 16) : (s.setNewKey a).draws = s.draws := rfl

@[simp] theorem State.setMem_v (s : State) (a : Memory) : (s.setMem a).v = s.v := rfl
@[simp] theorem State.setMem_i (s : State) (a : Memory) : (s.setMem a).i = s.i := rfl
@[simp] theorem State.setMem_pc (s : State) (a : Memory) : (s.setMem a).pc = s.pc := rfl
@[simp] theorem State.setMem_sp (s : State) (a : Memory) : (s.setMem a).sp = s.sp := rfl
@[simp] theorem State.setMem_stack (s : State) (a : Memory) : (s.setMem a).stack = s.stack := rfl
@[simp] theorem State.setMem_dt (s : State) (a : Memory) : (s.setMem a).dt = s.dt := rfl
@[simp] theorem State.setMem_st (s : State) (a : Memory) : (s.setMem a).st = s.st := rfl
@[simp] theorem State.setMem_fb (s : State) (a : Memory) : (s.setMem a).fb = s.fb := rfl
@[simp] theorem State.setMem_key (s : State) (a : Memory) : (s.setMem a).key = s.key := rfl
@[simp] theorem State.setMem_newKey (s : State) (a : Memory) : (s.setMem a).newKey = s.newKey := rfl
@[simp] theorem State.setMem_mem (s : State) (a : Memory) : (s.setMem a).mem = a := rfl
@[simp] theorem State.setMem_quirks (s : State) (a : Memory) : (s.setMem a).quirks = s.quirks := rfl
@[simp] theorem State.setMem_fontBase (s : State) (a : Memory) : (s.setMem a).fontBase = s.fontBase := rfl
@[simp] theorem State.setMem_result (s : State) (a : Memory) : (s.setMem a).result = s.result := rfl
@[simp] theorem State.setMem_draws (s : State) (a : Memory) : (s.setMem a).draws = s.draws := rfl

@[simp] theorem State.setResult_v (s : State) (a : Result) : (s.setResult a).v = s.v := rfl
@[simp] theorem State.setResult_i (s : State) (a : Result) : (s.setResult a).i = s.i := rfl
@[simp] theorem State.setResult_pc (s : State) (a : Result) : (s.setResult a).pc = s.pc := rfl
@[simp] theorem State.setResult_sp (s : State) (a : Result) : (s.setResult a).sp = s.sp := rfl
@[simp] theorem State.setResult_stack (s : State) (a : Result) : (s.setResult a).stack = s.stack := rfl
@[simp] theorem State.setResult_dt (s : State) (a : Result) : (s.setResult a).dt = s.dt := rfl
@[simp] theorem State.setResult_st (s : State) (a : Result) : (s.setResult a).st = s.st := rfl
@[simp] theorem State.setResult_fb (s : State) (a : Result) : (s.setResult a).fb = s.fb := rfl
@[simp] theorem State.setResult_key (s : State) (a : Result) : (s.setResult a).key = s.key := rfl
@[simp] theorem State.setResult_newKey (s : State) (a : Result) : (s.setResult a).newKey = s.newKey := rfl
@[simp] theorem State.setResult_mem (s : State) (a : Result) : (s.setResult a).mem = s.mem := rfl
@[simp] theorem State.setResult_quirks (s : State) (a : Result) : (s.setResult a).quirks = s.quirks := rfl
@[simp] theorem State.setResult_fontBase (s : State) (a : Result) : (s.setResult a).fontBase = s.fontBase := rfl
@[simp] theorem State.setResult_result (s : State) (a : Result) : (s.setResult a).result = a := rfl
@[simp] theorem State.setResult_draws (s : State) (a : Result) : (s.setResult a).draws = s.draws := rfl

@[simp] theorem State.setDraws_v (s : State) (a : Nat) : (s.setDraws a).v = s.v := rfl
@[simp] theorem State.setDraws_i (s : State) (a : Nat) : (s.setDraws a).i = s.i := rfl
@[simp] theorem State.setDraws_pc (s : State) (a : Nat) : (s.setDraws a).pc = s.pc := rfl
@[simp] theorem State.setDraws_sp (s : State) (a : Nat) : (s.setDraws a).sp = s.sp := rfl
@[simp] theorem State.setDraws_stack (s : State) (a : Nat) : (s.setDraws a).stack = s.stack := rfl
@[simp] theorem State.setDraws_dt (s : State) (a : Nat) : (s.setDraws a).dt = s.dt := rfl
@[simp] theorem State.setDraws_st (s : State) (a : Nat) : (s.setDraws a).st = s.st := rfl
@[simp] theorem State.setDraws_fb (s : State) (a : Nat) : (s.setDraws a).fb = s.fb := rfl
@[simp] theorem State.setDraws_key (s : State) (a : Nat) : (s.setDraws a).key = s.key := rfl
@[simp] theorem State.setDraws_newKey (s : State) (a : Nat) : (s.setDraws a).newKey = s.newKey := rfl
@[simp] theorem State.setDraws_mem (s : State) (a : Nat) : (s.setDraws a).mem = s.mem := rfl
@[simp] theorem State.setDraws_quirks (s : State) (a : Nat) : (s.setDraws a).quirks = s.quirks := rfl
@[simp] theorem State.setDraws_fontBase (s : State) (a : Nat) : (s.setDraws a).fontBase = s.fontBase := rfl
@[simp] theorem State.setDraws_result (s : State) (a : Nat) : (s.setDraws a).result = s.result := rfl
@[simp] theorem State.setDraws_draws (s : State) (a : Nat) : (s.setDraws a).draws = a := rfl

/-! ### The operations built from them -/

@[simp] theorem State.setV_v (s : State) (x : Reg) (b : Byte) : (s.setV x b).v = s.v.set x b := rfl
@[simp] theorem State.setV_i (s : State) (x : Reg) (b : Byte) : (s.setV x b).i = s.i := rfl
@[simp] theorem State.setV_pc (s : State) (x : Reg) (b : Byte) : (s.setV x b).pc = s.pc := rfl
@[simp] theorem State.setV_sp (s : State) (x : Reg) (b : Byte) : (s.setV x b).sp = s.sp := rfl
@[simp] theorem State.setV_stack (s : State) (x : Reg) (b : Byte) : (s.setV x b).stack = s.stack := rfl
@[simp] theorem State.setV_dt (s : State) (x : Reg) (b : Byte) : (s.setV x b).dt = s.dt := rfl
@[simp] theorem State.setV_st (s : State) (x : Reg) (b : Byte) : (s.setV x b).st = s.st := rfl
@[simp] theorem State.setV_fb (s : State) (x : Reg) (b : Byte) : (s.setV x b).fb = s.fb := rfl
@[simp] theorem State.setV_key (s : State) (x : Reg) (b : Byte) : (s.setV x b).key = s.key := rfl
@[simp] theorem State.setV_newKey (s : State) (x : Reg) (b : Byte) : (s.setV x b).newKey = s.newKey := rfl
@[simp] theorem State.setV_mem (s : State) (x : Reg) (b : Byte) : (s.setV x b).mem = s.mem := rfl
@[simp] theorem State.setV_quirks (s : State) (x : Reg) (b : Byte) : (s.setV x b).quirks = s.quirks := rfl
@[simp] theorem State.setV_fontBase (s : State) (x : Reg) (b : Byte) : (s.setV x b).fontBase = s.fontBase := rfl
@[simp] theorem State.setV_result (s : State) (x : Reg) (b : Byte) : (s.setV x b).result = s.result := rfl
@[simp] theorem State.setV_draws (s : State) (x : Reg) (b : Byte) : (s.setV x b).draws = s.draws := rfl

@[simp] theorem State.advance_v (s : State) : s.advance.v = s.v := rfl
@[simp] theorem State.advance_i (s : State) : s.advance.i = s.i := rfl
@[simp] theorem State.advance_pc (s : State) : s.advance.pc = mask12 (s.pc + 2) := rfl
@[simp] theorem State.advance_sp (s : State) : s.advance.sp = s.sp := rfl
@[simp] theorem State.advance_stack (s : State) : s.advance.stack = s.stack := rfl
@[simp] theorem State.advance_dt (s : State) : s.advance.dt = s.dt := rfl
@[simp] theorem State.advance_st (s : State) : s.advance.st = s.st := rfl
@[simp] theorem State.advance_fb (s : State) : s.advance.fb = s.fb := rfl
@[simp] theorem State.advance_key (s : State) : s.advance.key = s.key := rfl
@[simp] theorem State.advance_newKey (s : State) : s.advance.newKey = s.newKey := rfl
@[simp] theorem State.advance_mem (s : State) : s.advance.mem = s.mem := rfl
@[simp] theorem State.advance_quirks (s : State) : s.advance.quirks = s.quirks := rfl
@[simp] theorem State.advance_fontBase (s : State) : s.advance.fontBase = s.fontBase := rfl
@[simp] theorem State.advance_result (s : State) : s.advance.result = s.result := rfl
@[simp] theorem State.advance_draws (s : State) : s.advance.draws = s.draws := rfl

@[simp] theorem State.skip_v (s : State) : s.skip.v = s.v := rfl
@[simp] theorem State.skip_i (s : State) : s.skip.i = s.i := rfl
@[simp] theorem State.skip_pc (s : State) : s.skip.pc = mask12 (s.pc + 2) := rfl
@[simp] theorem State.skip_sp (s : State) : s.skip.sp = s.sp := rfl
@[simp] theorem State.skip_stack (s : State) : s.skip.stack = s.stack := rfl
@[simp] theorem State.skip_dt (s : State) : s.skip.dt = s.dt := rfl
@[simp] theorem State.skip_st (s : State) : s.skip.st = s.st := rfl
@[simp] theorem State.skip_fb (s : State) : s.skip.fb = s.fb := rfl
@[simp] theorem State.skip_key (s : State) : s.skip.key = s.key := rfl
@[simp] theorem State.skip_newKey (s : State) : s.skip.newKey = s.newKey := rfl
@[simp] theorem State.skip_mem (s : State) : s.skip.mem = s.mem := rfl
@[simp] theorem State.skip_quirks (s : State) : s.skip.quirks = s.quirks := rfl
@[simp] theorem State.skip_fontBase (s : State) : s.skip.fontBase = s.fontBase := rfl
@[simp] theorem State.skip_result (s : State) : s.skip.result = s.result := rfl
@[simp] theorem State.skip_draws (s : State) : s.skip.draws = s.draws := rfl

@[simp] theorem State.rewind_v (s : State) : s.rewind.v = s.v := rfl
@[simp] theorem State.rewind_i (s : State) : s.rewind.i = s.i := rfl
@[simp] theorem State.rewind_pc (s : State) : s.rewind.pc = mask12 (s.pc - 2) := rfl
@[simp] theorem State.rewind_sp (s : State) : s.rewind.sp = s.sp := rfl
@[simp] theorem State.rewind_stack (s : State) : s.rewind.stack = s.stack := rfl
@[simp] theorem State.rewind_dt (s : State) : s.rewind.dt = s.dt := rfl
@[simp] theorem State.rewind_st (s : State) : s.rewind.st = s.st := rfl
@[simp] theorem State.rewind_fb (s : State) : s.rewind.fb = s.fb := rfl
@[simp] theorem State.rewind_key (s : State) : s.rewind.key = s.key := rfl
@[simp] theorem State.rewind_newKey (s : State) : s.rewind.newKey = s.newKey := rfl
@[simp] theorem State.rewind_mem (s : State) : s.rewind.mem = s.mem := rfl
@[simp] theorem State.rewind_quirks (s : State) : s.rewind.quirks = s.quirks := rfl
@[simp] theorem State.rewind_fontBase (s : State) : s.rewind.fontBase = s.fontBase := rfl
@[simp] theorem State.rewind_result (s : State) : s.rewind.result = s.result := rfl
@[simp] theorem State.rewind_draws (s : State) : s.rewind.draws = s.draws := rfl

@[simp] theorem State.completed_v (s : State) : s.completed.v = s.v := rfl
@[simp] theorem State.completed_i (s : State) : s.completed.i = s.i := rfl
@[simp] theorem State.completed_pc (s : State) : s.completed.pc = s.pc := rfl
@[simp] theorem State.completed_sp (s : State) : s.completed.sp = s.sp := rfl
@[simp] theorem State.completed_stack (s : State) : s.completed.stack = s.stack := rfl
@[simp] theorem State.completed_dt (s : State) : s.completed.dt = s.dt := rfl
@[simp] theorem State.completed_st (s : State) : s.completed.st = s.st := rfl
@[simp] theorem State.completed_fb (s : State) : s.completed.fb = s.fb := rfl
@[simp] theorem State.completed_key (s : State) : s.completed.key = s.key := rfl
@[simp] theorem State.completed_newKey (s : State) : s.completed.newKey = s.newKey := rfl
@[simp] theorem State.completed_mem (s : State) : s.completed.mem = s.mem := rfl
@[simp] theorem State.completed_quirks (s : State) : s.completed.quirks = s.quirks := rfl
@[simp] theorem State.completed_fontBase (s : State) : s.completed.fontBase = s.fontBase := rfl
@[simp] theorem State.completed_result (s : State) : s.completed.result = .ok := rfl
@[simp] theorem State.completed_draws (s : State) : s.completed.draws = s.draws := rfl

@[simp] theorem State.raised_v (s : State) (e : Fault) : (s.raised e).v = s.v := rfl
@[simp] theorem State.raised_i (s : State) (e : Fault) : (s.raised e).i = s.i := rfl
@[simp] theorem State.raised_pc (s : State) (e : Fault) : (s.raised e).pc = mask12 (s.pc - 2) := rfl
@[simp] theorem State.raised_sp (s : State) (e : Fault) : (s.raised e).sp = s.sp := rfl
@[simp] theorem State.raised_stack (s : State) (e : Fault) : (s.raised e).stack = s.stack := rfl
@[simp] theorem State.raised_dt (s : State) (e : Fault) : (s.raised e).dt = s.dt := rfl
@[simp] theorem State.raised_st (s : State) (e : Fault) : (s.raised e).st = s.st := rfl
@[simp] theorem State.raised_fb (s : State) (e : Fault) : (s.raised e).fb = s.fb := rfl
@[simp] theorem State.raised_key (s : State) (e : Fault) : (s.raised e).key = s.key := rfl
@[simp] theorem State.raised_newKey (s : State) (e : Fault) : (s.raised e).newKey = s.newKey := rfl
@[simp] theorem State.raised_mem (s : State) (e : Fault) : (s.raised e).mem = s.mem := rfl
@[simp] theorem State.raised_quirks (s : State) (e : Fault) : (s.raised e).quirks = s.quirks := rfl
@[simp] theorem State.raised_fontBase (s : State) (e : Fault) : (s.raised e).fontBase = s.fontBase := rfl
@[simp] theorem State.raised_result (s : State) (e : Fault) : (s.raised e).result = .err e := rfl
@[simp] theorem State.raised_draws (s : State) (e : Fault) : (s.raised e).draws = s.draws := rfl

@[simp] theorem State.pushPc_v (s : State) : s.pushPc.v = s.v := rfl
@[simp] theorem State.pushPc_i (s : State) : s.pushPc.i = s.i := rfl
@[simp] theorem State.pushPc_pc (s : State) : s.pushPc.pc = s.pc := rfl
@[simp] theorem State.pushPc_sp (s : State) : s.pushPc.sp = Fin.ofNat 17 (s.sp.val + 1) := rfl
@[simp] theorem State.pushPc_stack (s : State) : s.pushPc.stack = s.stack.setIfInBounds s.sp.val s.pc := rfl
@[simp] theorem State.pushPc_dt (s : State) : s.pushPc.dt = s.dt := rfl
@[simp] theorem State.pushPc_st (s : State) : s.pushPc.st = s.st := rfl
@[simp] theorem State.pushPc_fb (s : State) : s.pushPc.fb = s.fb := rfl
@[simp] theorem State.pushPc_key (s : State) : s.pushPc.key = s.key := rfl
@[simp] theorem State.pushPc_newKey (s : State) : s.pushPc.newKey = s.newKey := rfl
@[simp] theorem State.pushPc_mem (s : State) : s.pushPc.mem = s.mem := rfl
@[simp] theorem State.pushPc_quirks (s : State) : s.pushPc.quirks = s.quirks := rfl
@[simp] theorem State.pushPc_fontBase (s : State) : s.pushPc.fontBase = s.fontBase := rfl
@[simp] theorem State.pushPc_result (s : State) : s.pushPc.result = s.result := rfl
@[simp] theorem State.pushPc_draws (s : State) : s.pushPc.draws = s.draws := rfl

@[simp] theorem State.popPc_v (s : State) : s.popPc.v = s.v := rfl
@[simp] theorem State.popPc_i (s : State) : s.popPc.i = s.i := rfl
@[simp] theorem State.popPc_pc (s : State) : s.popPc.pc = mask12 (s.stack.getD (s.sp.val - 1) 0) := rfl
@[simp] theorem State.popPc_sp (s : State) : s.popPc.sp = Fin.ofNat 17 (s.sp.val - 1) := rfl
@[simp] theorem State.popPc_stack (s : State) : s.popPc.stack = s.stack := rfl
@[simp] theorem State.popPc_dt (s : State) : s.popPc.dt = s.dt := rfl
@[simp] theorem State.popPc_st (s : State) : s.popPc.st = s.st := rfl
@[simp] theorem State.popPc_fb (s : State) : s.popPc.fb = s.fb := rfl
@[simp] theorem State.popPc_key (s : State) : s.popPc.key = s.key := rfl
@[simp] theorem State.popPc_newKey (s : State) : s.popPc.newKey = s.newKey := rfl
@[simp] theorem State.popPc_mem (s : State) : s.popPc.mem = s.mem := rfl
@[simp] theorem State.popPc_quirks (s : State) : s.popPc.quirks = s.quirks := rfl
@[simp] theorem State.popPc_fontBase (s : State) : s.popPc.fontBase = s.fontBase := rfl
@[simp] theorem State.popPc_result (s : State) : s.popPc.result = s.result := rfl
@[simp] theorem State.popPc_draws (s : State) : s.popPc.draws = s.draws := rfl

@[simp] theorem State.setFlag_v (s : State) (f : Bool) : (s.setFlag f).v = s.v.set vF (flagByte f) := rfl
@[simp] theorem State.setFlag_i (s : State) (f : Bool) : (s.setFlag f).i = s.i := rfl
@[simp] theorem State.setFlag_pc (s : State) (f : Bool) : (s.setFlag f).pc = s.pc := rfl
@[simp] theorem State.setFlag_sp (s : State) (f : Bool) : (s.setFlag f).sp = s.sp := rfl
@[simp] theorem State.setFlag_stack (s : State) (f : Bool) : (s.setFlag f).stack = s.stack := rfl
@[simp] theorem State.setFlag_dt (s : State) (f : Bool) : (s.setFlag f).dt = s.dt := rfl
@[simp] theorem State.setFlag_st (s : State) (f : Bool) : (s.setFlag f).st = s.st := rfl
@[simp] theorem State.setFlag_fb (s : State) (f : Bool) : (s.setFlag f).fb = s.fb := rfl
@[simp] theorem State.setFlag_key (s : State) (f : Bool) : (s.setFlag f).key = s.key := rfl
@[simp] theorem State.setFlag_newKey (s : State) (f : Bool) : (s.setFlag f).newKey = s.newKey := rfl
@[simp] theorem State.setFlag_mem (s : State) (f : Bool) : (s.setFlag f).mem = s.mem := rfl
@[simp] theorem State.setFlag_quirks (s : State) (f : Bool) : (s.setFlag f).quirks = s.quirks := rfl
@[simp] theorem State.setFlag_fontBase (s : State) (f : Bool) : (s.setFlag f).fontBase = s.fontBase := rfl
@[simp] theorem State.setFlag_result (s : State) (f : Bool) : (s.setFlag f).result = s.result := rfl
@[simp] theorem State.setFlag_draws (s : State) (f : Bool) : (s.setFlag f).draws = s.draws := rfl

@[simp] theorem State.skipIf_v (s : State) (c : Bool) : (s.skipIf c).v = s.v := by
  unfold State.skipIf; split <;> rfl
@[simp] theorem State.skipIf_i (s : State) (c : Bool) : (s.skipIf c).i = s.i := by
  unfold State.skipIf; split <;> rfl
@[simp] theorem State.skipIf_pc (s : State) (c : Bool) : (s.skipIf c).pc = if c then mask12 (s.pc + 2) else s.pc := by
  unfold State.skipIf; split <;> rfl
@[simp] theorem State.skipIf_sp (s : State) (c : Bool) : (s.skipIf c).sp = s.sp := by
  unfold State.skipIf; split <;> rfl
@[simp] theorem State.skipIf_stack (s : State) (c : Bool) : (s.skipIf c).stack = s.stack := by
  unfold State.skipIf; split <;> rfl
@[simp] theorem State.skipIf_dt (s : State) (c : Bool) : (s.skipIf c).dt = s.dt := by
  unfold State.skipIf; split <;> rfl
@[simp] theorem State.skipIf_st (s : State) (c : Bool) : (s.skipIf c).st = s.st := by
  unfold State.skipIf; split <;> rfl
@[simp] theorem State.skipIf_fb (s : State) (c : Bool) : (s.skipIf c).fb = s.fb := by
  unfold State.skipIf; split <;> rfl
@[simp] theorem State.skipIf_key (s : State) (c : Bool) : (s.skipIf c).key = s.key := by
  unfold State.skipIf; split <;> rfl
@[simp] theorem State.skipIf_newKey (s : State) (c : Bool) : (s.skipIf c).newKey = s.newKey := by
  unfold State.skipIf; split <;> rfl
@[simp] theorem State.skipIf_mem (s : State) (c : Bool) : (s.skipIf c).mem = s.mem := by
  unfold State.skipIf; split <;> rfl
@[simp] theorem State.skipIf_quirks (s : State) (c : Bool) : (s.skipIf c).quirks = s.quirks := by
  unfold State.skipIf; split <;> rfl
@[simp] theorem State.skipIf_fontBase (s : State) (c : Bool) : (s.skipIf c).fontBase = s.fontBase := by
  unfold State.skipIf; split <;> rfl
@[simp] theorem State.skipIf_result (s : State) (c : Bool) : (s.skipIf c).result = s.result := by
  unfold State.skipIf; split <;> rfl
@[simp] theorem State.skipIf_draws (s : State) (c : Bool) : (s.skipIf c).draws = s.draws := by
  unfold State.skipIf; split <;> rfl

@[simp] theorem State.logicFlag_v (s : State) : s.logicFlag.v = if s.quirks.logicClearsVf then s.v.set vF 0 else s.v := by
  unfold State.logicFlag; split <;> rfl
@[simp] theorem State.logicFlag_i (s : State) : s.logicFlag.i = s.i := by
  unfold State.logicFlag; split <;> rfl
@[simp] theorem State.logicFlag_pc (s : State) : s.logicFlag.pc = s.pc := by
  unfold State.logicFlag; split <;> rfl
@[simp] theorem State.logicFlag_sp (s : State) : s.logicFlag.sp = s.sp := by
  unfold State.logicFlag; split <;> rfl
@[simp] theorem State.logicFlag_stack (s : State) : s.logicFlag.stack = s.stack := by
  unfold State.logicFlag; split <;> rfl
@[simp] theorem State.logicFlag_dt (s : State) : s.logicFlag.dt = s.dt := by
  unfold State.logicFlag; split <;> rfl
@[simp] theorem State.logicFlag_st (s : State) : s.logicFlag.st = s.st := by
  unfold State.logicFlag; split <;> rfl
@[simp] theorem State.logicFlag_fb (s : State) : s.logicFlag.fb = s.fb := by
  unfold State.logicFlag; split <;> rfl
@[simp] theorem State.logicFlag_key (s : State) : s.logicFlag.key = s.key := by
  unfold State.logicFlag; split <;> rfl
@[simp] theorem State.logicFlag_newKey (s : State) : s.logicFlag.newKey = s.newKey := by
  unfold State.logicFlag; split <;> rfl
@[simp] theorem State.logicFlag_mem (s : State) : s.logicFlag.mem = s.mem := by
  unfold State.logicFlag; split <;> rfl
@[simp] theorem State.logicFlag_quirks (s : State) : s.logicFlag.quirks = s.quirks := by
  unfold State.logicFlag; split <;> rfl
@[simp] theorem State.logicFlag_fontBase (s : State) : s.logicFlag.fontBase = s.fontBase := by
  unfold State.logicFlag; split <;> rfl
@[simp] theorem State.logicFlag_result (s : State) : s.logicFlag.result = s.result := by
  unfold State.logicFlag; split <;> rfl
@[simp] theorem State.logicFlag_draws (s : State) : s.logicFlag.draws = s.draws := by
  unfold State.logicFlag; split <;> rfl

/-! ### Registers -/

/-- A register read after a register write. -/
theorem State.getV_setV (s : State) (x r : Reg) (b : Byte) :
    (s.setV x b).getV r = if r = x then b else s.getV r := by
  by_cases h : r = x
  · subst h; simp [State.getV]
  · have : x.val ≠ r.val := fun e => h (Fin.ext e.symm)
    simp [State.getV, h, this]

/-- The register read sees only the register file. -/
theorem State.getV_congr {s t : State} (h : t.v = s.v) (r : Reg) : t.getV r = s.getV r := by
  simp [State.getV, h]

@[simp] theorem State.getV_setI (s : State) (a : Word) (r : Reg) : (s.setI a).getV r = s.getV r :=
  State.getV_congr (by simp) r
@[simp] theorem State.getV_setPc (s : State) (a : Word) (r : Reg) : (s.setPc a).getV r = s.getV r :=
  State.getV_congr (by simp) r
@[simp] theorem State.getV_setDt (s : State) (a : Byte) (r : Reg) : (s.setDt a).getV r = s.getV r :=
  State.getV_congr (by simp) r
@[simp] theorem State.getV_setSt (s : State) (a : Byte) (r : Reg) : (s.setSt a).getV r = s.getV r :=
  State.getV_congr (by simp) r
@[simp] theorem State.getV_setFb (s : State) (a : FrameBuffer) (r : Reg) : (s.setFb a).getV r = s.getV r :=
  State.getV_congr (by simp) r
@[simp] theorem State.getV_setMem (s : State) (a : Memory) (r : Reg) : (s.setMem a).getV r = s.getV r :=
  State.getV_congr (by simp) r
@[simp] theorem State.getV_setResult (s : State) (a : Result) (r : Reg) : (s.setResult a).getV r = s.getV r :=
  State.getV_congr (by simp) r
@[simp] theorem State.getV_setDraws (s : State) (a : Nat) (r : Reg) : (s.setDraws a).getV r = s.getV r :=
  State.getV_congr (by simp) r
@[simp] theorem State.getV_advance (s : State) (r : Reg) : s.advance.getV r = s.getV r :=
  State.getV_congr (by simp) r
@[simp] theorem State.getV_completed (s : State) (r : Reg) : s.completed.getV r = s.getV r :=
  State.getV_congr (by simp) r
@[simp] theorem State.getV_raised (s : State) (e : Fault) (r : Reg) : (s.raised e).getV r = s.getV r :=
  State.getV_congr (by simp) r
@[simp] theorem State.getV_pushPc (s : State) (r : Reg) : s.pushPc.getV r = s.getV r :=
  State.getV_congr (by simp) r
@[simp] theorem State.getV_popPc (s : State) (r : Reg) : s.popPc.getV r = s.getV r :=
  State.getV_congr (by simp) r
@[simp] theorem State.getV_rewind (s : State) (r : Reg) : s.rewind.getV r = s.getV r :=
  State.getV_congr (by simp) r
@[simp] theorem State.getV_skipIf (s : State) (c : Bool) (r : Reg) : (s.skipIf c).getV r = s.getV r :=
  State.getV_congr (by simp) r

/-- The flag write is a write of VF. -/
theorem State.getV_setFlag (s : State) (f : Bool) (r : Reg) :
    (s.setFlag f).getV r = if r = vF then flagByte f else s.getV r := State.getV_setV s vF r _

/-- The logic-op flag quirk writes 0 to VF or nothing. -/
theorem State.getV_logicFlag (s : State) (r : Reg) :
    s.logicFlag.getV r = if s.quirks.logicClearsVf = true ∧ r = vF then 0 else s.getV r := by
  unfold State.logicFlag
  cases s.quirks.logicClearsVf
  · simp
  · simp [State.getV_setV]

end Sys2Proof.Machine
end

