-- ==== Sys2Proof/Laws/Display.lean ====
section
/-! SUPPORT. What a draw does to the frame buffer and to the collision flag: the compositor's loop said once. -/

namespace Sys2Proof.Machine

/-- The frame buffers with the same pixels are the same. -/
theorem FrameBuffer.ext_pixel {f g : FrameBuffer} (h : ∀ c r, f.pixel c r = g.pixel c r) : f = g := by
  apply Vector.ext; intro c hc
  apply Vector.ext; intro r hr
  exact h ⟨c, hc⟩ ⟨r, hr⟩

/-- Toggling a pixel inverts it and no other. -/
theorem FrameBuffer.pixel_toggle (fb : FrameBuffer) (c c' : Fin 64) (r r' : Fin 32) :
    (fb.toggle c r).pixel c' r' = (fb.pixel c' r' ^^ decide ((c', r') = (c, r))) := by
  unfold FrameBuffer.toggle FrameBuffer.pixel
  by_cases hc : c' = c
  · subst hc
    by_cases hr : r' = r
    · subst hr; simp
    · have : r.val ≠ r'.val := fun e => hr (Fin.ext e.symm)
      simp [hr, this]
  · have : c.val ≠ c'.val := fun e => hc (Fin.ext e.symm)
    simp [hc, this]

@[simp] theorem FrameBuffer.pixel_blank (c : Fin 64) (r : Fin 32) : FrameBuffer.blank.pixel c r = false := by
  simp [FrameBuffer.blank, FrameBuffer.pixel]

/-- A draw over distinct pixels inverts exactly those. -/
theorem pixel_xorPixels {ps : List Pixel} (h : ps.Nodup) (fb : FrameBuffer) (c : Fin 64) (r : Fin 32) :
    (xorPixels ps fb).1.pixel c r = (fb.pixel c r ^^ decide ((c, r) ∈ ps)) := by
  induction ps generalizing fb with
  | nil => simp [xorPixels]
  | cons p ps ih =>
    obtain ⟨pc, pr⟩ := p
    rw [List.nodup_cons] at h
    simp only [xorPixels, ih h.2, FrameBuffer.pixel_toggle]
    by_cases hp : (c, r) = (pc, pr)
    · simp [hp, h.1]
    · simp [hp]

/-- The collision flag of a draw over distinct pixels: some target was lit before the draw (R232). -/
theorem hit_xorPixels {ps : List Pixel} (h : ps.Nodup) (fb : FrameBuffer) :
    (xorPixels ps fb).2 = ps.any fun p => fb.pixel p.1 p.2 := by
  induction ps generalizing fb with
  | nil => simp [xorPixels]
  | cons p ps ih =>
    obtain ⟨pc, pr⟩ := p
    rw [List.nodup_cons] at h
    simp only [xorPixels, ih h.2, List.any_cons]
    congr 1
    apply Bool.eq_iff_iff.mpr
    simp only [List.any_eq_true]
    have key : ∀ q ∈ ps, (fb.toggle pc pr).pixel q.1 q.2 = fb.pixel q.1 q.2 := by
      intro q hq
      have : (q.1, q.2) ≠ (pc, pr) := fun e => h.1 (e ▸ hq)
      simp [FrameBuffer.pixel_toggle, this]
    constructor
    · rintro ⟨q, hq, e⟩; exact ⟨q, hq, by rwa [key q hq] at e⟩
    · rintro ⟨q, hq, e⟩; exact ⟨q, hq, by rwa [key q hq]⟩

/-- Two sprite bits within 8 columns and 32 rows have different target pixels (R234). -/
theorem placePixel_inj {clip : Bool} {x0 y0 : Byte} {c r c' r' : Nat} {p : Pixel} (hc : c < 8) (hc' : c' < 8)
    (hr : r < 32) (hr' : r' < 32) (h : placePixel clip x0 y0 c r = some p) (h' : placePixel clip x0 y0 c' r' = some p) :
    c = c' ∧ r = r' := by
  cases clip
  · simp only [placePixel, Bool.false_eq_true, if_false, Option.some.injEq] at h h'
    have e1 := congrArg (fun q : Pixel => q.1.val) (h.trans h'.symm)
    have e2 := congrArg (fun q : Pixel => q.2.val) (h.trans h'.symm)
    simp only [Fin.ofNat] at e1 e2
    omega
  · simp only [placePixel, if_true] at h h'
    split at h
    · split at h'
      · simp only [Option.some.injEq] at h h'
        have e1 := congrArg (fun q : Pixel => q.1.val) (h.trans h'.symm)
        have e2 := congrArg (fun q : Pixel => q.2.val) (h.trans h'.symm)
        simp only at e1 e2
        omega
      · simp at h'
    · simp at h

/-- What one row's targets are. -/
theorem mem_rowTargets {clip : Bool} {x0 y0 row : Byte} {r : Nat} {p : Pixel} :
    p ∈ rowTargets clip x0 y0 row r ↔ ∃ c < 8, spriteBit row c = true ∧ placePixel clip x0 y0 c r = some p := by
  simp only [rowTargets, List.mem_filterMap, List.mem_range, Option.ite_none_right_eq_some]

/-- What a draw's targets are: the pixels of the set sprite bits that are not skipped (R231, R233). -/
theorem mem_spriteTargets {clip : Bool} {x0 y0 : Byte} {m : Memory} {base : Word} {n : Nat} {p : Pixel} :
    p ∈ spriteTargets clip x0 y0 m base n ↔
      ∃ r < n, ∃ c < 8, spriteBit (m.read (blockAddr base r)) c = true ∧ placePixel clip x0 y0 c r = some p := by
  simp only [spriteTargets, List.mem_flatMap, List.mem_range, mem_rowTargets]

/-- No pixel is touched twice in one draw (R234). -/
theorem nodup_spriteTargets (clip : Bool) (x0 y0 : Byte) (m : Memory) (base : Word) {n : Nat} (hn : n ≤ 32) :
    (spriteTargets clip x0 y0 m base n).Nodup := by
  unfold spriteTargets
  rw [List.nodup_flatMap]
  constructor
  · intro r hr
    rw [List.mem_range] at hr
    refine List.pairwise_filterMap.mpr (List.nodup_range.imp_of_mem ?_)
    intro c c' hc hc' hne p h p' h'
    rw [List.mem_range] at hc hc'
    rw [Option.ite_none_right_eq_some] at h h'
    rintro rfl
    exact hne (placePixel_inj hc hc' (by omega) (by omega) h.2 h'.2).1
  · refine List.nodup_range.imp_of_mem ?_
    intro r r' hr hr' hne p h h'
    rw [List.mem_range] at hr hr'
    obtain ⟨c, hc, -, e⟩ := mem_rowTargets.mp h
    obtain ⟨c', hc', -, e'⟩ := mem_rowTargets.mp h'
    exact hne (placePixel_inj hc hc' (by omega) (by omega) e e').2

/-- A draw inverts exactly the target pixels (R233). -/
theorem pixel_drawSprite (s : State) (x y : Reg) (n : Nibble) (c : Fin 64) (r : Fin 32) :
    (s.drawSprite x y n).1.pixel c r = (s.fb.pixel c r ^^
      decide ((c, r) ∈ spriteTargets s.quirks.clip (s.getV x) (s.getV y) s.mem s.i n.toNat)) :=
  pixel_xorPixels (nodup_spriteTargets _ _ _ _ _ (by have := n.isLt; omega)) _ _ _

/-- The collision flag of a draw is 1 exactly when some target pixel was lit before it (R232). -/
theorem hit_drawSprite (s : State) (x y : Reg) (n : Nibble) :
    (s.drawSprite x y n).2 = true ↔
      ∃ p ∈ spriteTargets s.quirks.clip (s.getV x) (s.getV y) s.mem s.i n.toNat, s.fb.pixel p.1 p.2 = true := by
  unfold State.drawSprite
  rw [hit_xorPixels (nodup_spriteTargets _ _ _ _ _ (by have := n.isLt; omega)), List.any_eq_true]

end Sys2Proof.Machine
end

