-- ==== Sys2Proof/Laws/Operands.lean ====
section
/-! SUPPORT. What the operand forms of Machine/Operands.lean and the flags of Machine/Flags.lean say: one lemma per shared
operation, to cite instead of unfolding it. -/

namespace Sys2Proof.Machine

/-! ### Block transfers -/

/-- Two registers of one transfer go to different addresses (R182). -/
theorem mask12_blockAddr_inj {base : Word} {j k : Nat} (hj : j < 16) (hk : k < 16)
    (h : mask12 (blockAddr base j) = mask12 (blockAddr base k)) : j = k := by
  have := congrArg BitVec.toNat h
  simp [blockAddr, BitVec.toNat_add] at this
  omega

theorem storeBlock_wf (v : Vector Byte 16) (base : Word) {m : Memory} (hm : m.wf) (n : Nat) :
    (storeBlock v base m n).wf := by
  induction n with
  | zero => exact hm
  | succ n ih => exact Memory.write_wf ih _ _

/-- A block store leaves every byte outside its addresses alone. -/
theorem read_storeBlock_outside (v : Vector Byte 16) (base : Word) (m : Memory) {n : Nat} {a : Word}
    (h : ∀ k < n, mask12 a ≠ mask12 (blockAddr base k)) : (storeBlock v base m n).read a = m.read a := by
  induction n with
  | zero => rfl
  | succ n ih =>
    rw [storeBlock, Memory.read_write_ne _ _ (h n (by omega)), ih fun k hk => h k (by omega)]

/-- A block store puts register k at its address (R184). -/
theorem read_storeBlock (v : Vector Byte 16) (base : Word) {m : Memory} (hm : m.wf) {n k : Nat} (hn : n ≤ 16)
    (hk : k < n) : (storeBlock v base m n).read (blockAddr base k) = v.getD k 0 := by
  induction n with
  | zero => omega
  | succ n ih =>
    rw [storeBlock, Memory.read_write (storeBlock_wf v base hm n)]
    split
    · rename_i h
      rw [mask12_blockAddr_inj (by omega) (by omega) h]
    · rename_i h
      have : k ≠ n := fun e => h (by rw [e])
      exact ih (by omega) (by omega)

/-- A block load gives register r < n the byte at its address and leaves the others alone (R186). -/
theorem getElem_loadBlock (m : Memory) (base : Word) (v : Vector Byte 16) {n : Nat} (hn : n ≤ 16) (r : Reg) :
    (loadBlock m base v n)[r] = if r.val < n then m.read (blockAddr base r.val) else v[r] := by
  induction n with
  | zero => simp [loadBlock]
  | succ n ih =>
    have ih := ih (by omega)
    simp only [loadBlock]
    by_cases h : r.val = n
    · simp [h]
    · have h' : n ≠ r.val := fun e => h e.symm
      simp only [Fin.getElem_fin] at ih ⊢
      rw [Vector.getElem_setIfInBounds_ne (h := by omega) (by omega), ih]
      have : (r.val < n) ↔ (r.val < n + 1) := by omega
      simp [this]

/-- The index after a block transfer is a 12-bit value when it was one before (R183, R26). -/
theorem indexAfter_lt {s : State} (h : s.i.toNat < 4096) (x : Reg) : (s.indexAfter x).toNat < 4096 := by
  unfold State.indexAfter
  split
  · exact mask12_lt _
  · exact h

/-- The index after a block transfer as a number (R183). -/
theorem toNat_indexAfter (s : State) (x : Reg) :
    (s.indexAfter x).toNat = if s.quirks.indexIncrement then (s.i.toNat + x.val + 1) % 4096 else s.i.toNat := by
  unfold State.indexAfter
  split
  · simp [blockAddr, BitVec.toNat_add]; omega
  · rfl

/-- The offset register of BNNN as a number (R200). -/
theorem jumpReg_eq (s : State) (nnn : Addr12) :
    s.jumpReg nnn = if s.quirks.jumpVx then Fin.ofNat 16 (nnn.toNat / 256) else 0 := by
  unfold State.jumpReg
  split
  · apply Fin.ext
    simp [regOf, BitVec.extractLsb', Nat.shiftRight_eq_div_pow]
  · rfl

/-! ### Digits -/

/-- The three digits are decimal digits that make up the value (R203). -/
theorem digits_spec (v : Byte) :
    (hundreds v).toNat ≤ 2 ∧ (tens v).toNat ≤ 9 ∧ (units v).toNat ≤ 9 ∧
      100 * (hundreds v).toNat + 10 * (tens v).toNat + (units v).toNat = v.toNat := by
  have := v.isLt
  simp [hundreds, tens, units]
  omega

/-! ### Keys -/

/-- The key test: a value ≥ 16 is never down, a value below 16 is down when its key is (R210). -/
theorem keyDownAt_iff (s : State) (b : Byte) :
    s.keyDownAt b = true ↔ ∃ k : Fin 16, k.val = b.toNat ∧ s.key[k] = true := by
  unfold State.keyDownAt
  by_cases h : b.toNat < 16
  · simp [Vector.getD, h]
    constructor
    · intro e; exact ⟨⟨b.toNat, h⟩, rfl, e⟩
    · rintro ⟨k, hk, e⟩; simpa [hk] using e
  · simp [Vector.getD, h]
    intro k hk; omega

/-- No newly pressed key: the lowest one does not exist (R216). -/
theorem lowestNewKey_eq_none (s : State) : s.lowestNewKey = none ↔ ∀ k : Fin 16, s.newKey[k] = false := by
  simp [State.lowestNewKey, List.find?_eq_none]

/-- The captured key is newly pressed and no lower one is (R216). -/
theorem lowestNewKey_eq_some {s : State} {k : Fin 16} :
    s.lowestNewKey = some k ↔ s.newKey[k] = true ∧ ∀ j : Fin 16, j < k → s.newKey[j] = false := by
  have key : ∀ p : Fin 16 → Bool, (List.finRange 16).find? p = some k ↔ p k = true ∧ ∀ j, j < k → p j = false := by
    intro p
    rw [List.find?_eq_some_iff_getElem]
    constructor
    · rintro ⟨h1, n, hn, h2, h3⟩
      simp only [List.getElem_finRange] at h2 h3
      refine ⟨h1, fun j hj => ?_⟩
      have hnk : n = k.val := by rw [← h2]; rfl
      have := h3 j.val (by rw [hnk]; exact hj)
      simpa using this
    · rintro ⟨h1, h2⟩
      refine ⟨h1, k.val, by simp, by simp, fun j hj => ?_⟩
      simpa using h2 ⟨j, by omega⟩ hj
  exact key _

/-! ### Flags -/

@[simp] theorem carry_eq (a b : Byte) : carry a b = decide (a.toNat + b.toNat > 255) := rfl

@[simp] theorem notBorrow_eq (a b : Byte) : notBorrow a b = decide (a.toNat ≥ b.toNat) := rfl

/-- The shifted-out bits as numbers (R165, R166). -/
theorem toNat_flagByte_outRight (b : Byte) : (flagByte (outRight b)).toNat = b.toNat % 2 := by
  revert b; decide

theorem toNat_flagByte_outLeft (b : Byte) : (flagByte (outLeft b)).toNat = b.toNat / 128 := by
  revert b; decide

theorem toNat_flagByte (f : Bool) : (flagByte f).toNat = if f then 1 else 0 := by
  cases f <;> rfl

end Sys2Proof.Machine
end

