-- ==== Sys2Proof/Laws/Exec.lean ====
section
/-! SUPPORT. What the shared shapes of a meaning leave unchanged, what any meaning can return, and what a draw touches: the
facts the statements about single instructions are assembled from. -/

namespace Sys2Proof.Machine

/-! ### Frames of the shared shapes -/

/-- A skip, taken or not, changes PC only. -/
theorem frame_skipIf (s : State) (c : Bool) : Frame s (s.skipIf c).completed [] [] := by
  refine ⟨by simp, ?_, by simp, by simp, by simp, by simp⟩
  intro p _; cases p <;> simp [Part.Same]

/-- A register write changes that register. -/
theorem frame_setV (s : State) (x : Reg) (b : Byte) : Frame s (s.setV x b).completed [x] [] := by
  refine ⟨fun r hr => ?_, ?_, by simp, by simp, by simp, by simp⟩
  · rw [State.getV_completed, State.getV_setV, if_neg (by simpa using hr)]
  · intro p _; cases p <;> simp [Part.Same]

/-- A register write and a flag write change that register and VF. -/
theorem frame_setV_setFlag (s : State) (x : Reg) (b : Byte) (f : Bool) :
    Frame s ((s.setV x b).setFlag f).completed [x, vF] [] := by
  refine ⟨fun r hr => ?_, ?_, by simp, by simp, by simp, by simp⟩
  · simp only [List.mem_cons, List.not_mem_nil, or_false, not_or] at hr
    rw [State.getV_completed, State.getV_setFlag, if_neg hr.2, State.getV_setV, if_neg hr.1]
  · intro p _; cases p <;> simp [Part.Same]

/-- A logic operation changes its destination and, under the quirk, VF. -/
theorem frame_setV_logicFlag (s : State) (x : Reg) (b : Byte) :
    Frame s (s.setV x b).logicFlag.completed [x, vF] [] := by
  refine ⟨fun r hr => ?_, ?_, by simp, by simp, by simp, by simp⟩
  · simp only [List.mem_cons, List.not_mem_nil, or_false, not_or] at hr
    rw [State.getV_completed, State.getV_logicFlag, if_neg (fun h => hr.2 h.2), State.getV_setV, if_neg hr.1]
  · intro p _; cases p <;> simp [Part.Same]

/-- A write of I changes I. -/
theorem frame_setI (s : State) (a : Word) : Frame s (s.setI a).completed [] [.index] := by
  refine ⟨by simp, ?_, by simp, by simp, by simp, by simp⟩
  intro p hp; cases p <;> simp_all [Part.Same]

/-! ### Raising an error -/

/-- The error entry is the one R252 describes. -/
theorem raises_raised (s : State) (e : Fault) : Raises s (s.raised e) e := by
  refine ⟨rfl, ?_⟩
  simp [BitVec.toNat_sub]; omega

/-- Raised from the state a step has advanced, an error leaves the state the step began with (R252). -/
theorem raised_advance {s : State} (h : s.pc.toNat < 4096) (e : Fault) :
    s.advance.raised e = { s with result := .err e } := by
  unfold State.raised State.rewind State.advance State.setResult State.setPc
  simp only [mask12_rewind_advance h]

/-- What a meaning can answer: a next state that is Ok, or one of the three errors, each from the one instruction that
raises it (R250, R254). -/
theorem exec_cases (i : Instr) (s : State) :
    ∃ t, exec i s = .next t ∧
      (t.result = .ok ∨
        (i = .ret ∧ s.sp.val = 0 ∧ t = s.raised .stackUnderflow) ∨
        (∃ nnn, i = .call nnn ∧ s.sp.val = 16 ∧ t = s.raised .stackOverflow) ∨
        (∃ x, i = .ldF x ∧ s.fontBase = none ∧ t = s.raised .unknownOpcode)) := by
  cases i
  case ret =>
    by_cases h : s.sp.val = 0
    · exact ⟨s.raised .stackUnderflow, by simp [exec, execRet, h], by simp [h]⟩
    · exact ⟨s.popPc.completed, by simp [exec, execRet, h], by simp⟩
  case call nnn =>
    by_cases h : s.sp.val = 16
    · exact ⟨s.raised .stackOverflow, by simp [exec, execCall, h], by simp [h]⟩
    · exact ⟨(s.pushPc.setPc (wordOfAddr nnn)).completed, by simp [exec, execCall, h], by simp⟩
  case ldF x =>
    cases h : s.fontBase with
    | none => exact ⟨s.raised .unknownOpcode, by simp [exec, execLdF, h], by simp⟩
    | some b => exact ⟨(s.setI (glyphAddr b (s.getV x))).completed, by simp [exec, execLdF, h], by simp⟩
  case ldVxK x =>
    cases h : s.lowestNewKey with
    | none => exact ⟨s.rewind.completed, by simp [exec, execLdVxK, h], by simp⟩
    | some k => exact ⟨(s.setV x (BitVec.ofNat 8 k.val)).completed, by simp [exec, execLdVxK, h], by simp⟩
  all_goals exact ⟨_, rfl, .inl (by simp)⟩

/-- Every step answers a next state (R112, R253). -/
theorem step_answers (s : State) : ∃ t, step s = .next t := by
  unfold step
  split
  · obtain ⟨t, ht, _⟩ := exec_cases _ _; exact ⟨t, ht⟩
  · exact ⟨_, rfl⟩

/-! ### Drawing -/

/-- The touched pixels are the targets of the draw (R231, R233). -/
theorem touched_iff (s : State) (x y : Reg) (n : Nibble) (c : Fin 64) (r : Fin 32) :
    s.Touched x y n c r ↔
      (c, r) ∈ spriteTargets s.quirks.clip (s.getV x) (s.getV y) s.mem s.i n.toNat := by
  rw [mem_spriteTargets]
  unfold State.Touched placePixel spriteBit
  constructor
  · rintro ⟨j, k, hj, hk, hb, hp⟩
    refine ⟨j, hj, k, hk, hb, ?_⟩
    split at hp
    · rename_i hc
      rw [if_pos hc, dif_pos ⟨by omega, by omega⟩]
      simp only [Option.some.injEq, Prod.mk.injEq, Fin.ext_iff]; exact hp
    · rename_i hc
      rw [if_neg hc]
      simp only [Option.some.injEq, Prod.mk.injEq, Fin.ext_iff, Fin.ofNat]; exact hp
  · rintro ⟨j, hj, k, hk, hb, hp⟩
    refine ⟨j, k, hj, hk, hb, ?_⟩
    split at hp
    · rename_i hc
      rw [if_pos hc]
      split at hp
      · simp only [Option.some.injEq, Prod.mk.injEq, Fin.ext_iff] at hp; exact hp
      · simp at hp
    · rename_i hc
      rw [if_neg hc]
      simp only [Option.some.injEq, Prod.mk.injEq, Fin.ext_iff, Fin.ofNat] at hp; exact hp

end Sys2Proof.Machine
end

