-- ==== Sys2Proof/Laws/PerInstr.lean ====
section
/-! SUPPORT. Per instruction, about the instruction as syntax: its word lies in its own row of the opcode map
(spec/30_encoding.md R87). -/

namespace Sys2Proof.Laws.RowMatch

/-- The encoded word is a word of the instruction's row: `(w & mask) = match` (R87). -/
def Statement (i : Instr) : Prop :=
  ∃ r : OpcodeRow, opcodeRows[i.rowIndex]? = some r ∧ r.covers i.encode = true

theorem cls : Statement .cls := ⟨_, rfl, by decide⟩

theorem ret : Statement .ret := ⟨_, rfl, by decide⟩

theorem jp (nnn : Addr12) : Statement (.jp nnn) :=
  ⟨_, rfl, beq_iff_eq.mpr ((wordNNN_and_F000 _ _).trans (by decide))⟩

theorem call (nnn : Addr12) : Statement (.call nnn) :=
  ⟨_, rfl, beq_iff_eq.mpr ((wordNNN_and_F000 _ _).trans (by decide))⟩

theorem seImm (x : Reg) (nn : Byte) : Statement (.seImm x nn) :=
  ⟨_, rfl, beq_iff_eq.mpr ((wordXNN_and_F000 _ _ _).trans (by decide))⟩

theorem sneImm (x : Reg) (nn : Byte) : Statement (.sneImm x nn) :=
  ⟨_, rfl, beq_iff_eq.mpr ((wordXNN_and_F000 _ _ _).trans (by decide))⟩

theorem seReg (x y : Reg) : Statement (.seReg x y) :=
  ⟨_, rfl, beq_iff_eq.mpr ((wordXYN_and_F00F _ _ _ _).trans (by decide))⟩

theorem ldImm (x : Reg) (nn : Byte) : Statement (.ldImm x nn) :=
  ⟨_, rfl, beq_iff_eq.mpr ((wordXNN_and_F000 _ _ _).trans (by decide))⟩

theorem addImm (x : Reg) (nn : Byte) : Statement (.addImm x nn) :=
  ⟨_, rfl, beq_iff_eq.mpr ((wordXNN_and_F000 _ _ _).trans (by decide))⟩

theorem ldReg (x y : Reg) : Statement (.ldReg x y) :=
  ⟨_, rfl, beq_iff_eq.mpr ((wordXYN_and_F00F _ _ _ _).trans (by decide))⟩

theorem orReg (x y : Reg) : Statement (.orReg x y) :=
  ⟨_, rfl, beq_iff_eq.mpr ((wordXYN_and_F00F _ _ _ _).trans (by decide))⟩

theorem andReg (x y : Reg) : Statement (.andReg x y) :=
  ⟨_, rfl, beq_iff_eq.mpr ((wordXYN_and_F00F _ _ _ _).trans (by decide))⟩

theorem xorReg (x y : Reg) : Statement (.xorReg x y) :=
  ⟨_, rfl, beq_iff_eq.mpr ((wordXYN_and_F00F _ _ _ _).trans (by decide))⟩

theorem addReg (x y : Reg) : Statement (.addReg x y) :=
  ⟨_, rfl, beq_iff_eq.mpr ((wordXYN_and_F00F _ _ _ _).trans (by decide))⟩

theorem sub (x y : Reg) : Statement (.sub x y) :=
  ⟨_, rfl, beq_iff_eq.mpr ((wordXYN_and_F00F _ _ _ _).trans (by decide))⟩

theorem shr (x y : Reg) : Statement (.shr x y) :=
  ⟨_, rfl, beq_iff_eq.mpr ((wordXYN_and_F00F _ _ _ _).trans (by decide))⟩

theorem subn (x y : Reg) : Statement (.subn x y) :=
  ⟨_, rfl, beq_iff_eq.mpr ((wordXYN_and_F00F _ _ _ _).trans (by decide))⟩

theorem shl (x y : Reg) : Statement (.shl x y) :=
  ⟨_, rfl, beq_iff_eq.mpr ((wordXYN_and_F00F _ _ _ _).trans (by decide))⟩

theorem sneReg (x y : Reg) : Statement (.sneReg x y) :=
  ⟨_, rfl, beq_iff_eq.mpr ((wordXYN_and_F00F _ _ _ _).trans (by decide))⟩

theorem ldI (nnn : Addr12) : Statement (.ldI nnn) :=
  ⟨_, rfl, beq_iff_eq.mpr ((wordNNN_and_F000 _ _).trans (by decide))⟩

theorem jpV0 (nnn : Addr12) : Statement (.jpV0 nnn) :=
  ⟨_, rfl, beq_iff_eq.mpr ((wordNNN_and_F000 _ _).trans (by decide))⟩

theorem rnd (x : Reg) (nn : Byte) : Statement (.rnd x nn) :=
  ⟨_, rfl, beq_iff_eq.mpr ((wordXNN_and_F000 _ _ _).trans (by decide))⟩

theorem drw (x y : Reg) (n : Nibble) : Statement (.drw x y n) :=
  ⟨_, rfl, beq_iff_eq.mpr ((wordXYN_and_F000 _ _ _ _).trans (by decide))⟩

theorem skp (x : Reg) : Statement (.skp x) :=
  ⟨_, rfl, beq_iff_eq.mpr ((wordXNN_and_F0FF _ _ _).trans (by decide))⟩

theorem sknp (x : Reg) : Statement (.sknp x) :=
  ⟨_, rfl, beq_iff_eq.mpr ((wordXNN_and_F0FF _ _ _).trans (by decide))⟩

theorem ldVxDT (x : Reg) : Statement (.ldVxDT x) :=
  ⟨_, rfl, beq_iff_eq.mpr ((wordXNN_and_F0FF _ _ _).trans (by decide))⟩

theorem ldVxK (x : Reg) : Statement (.ldVxK x) :=
  ⟨_, rfl, beq_iff_eq.mpr ((wordXNN_and_F0FF _ _ _).trans (by decide))⟩

theorem ldDTVx (x : Reg) : Statement (.ldDTVx x) :=
  ⟨_, rfl, beq_iff_eq.mpr ((wordXNN_and_F0FF _ _ _).trans (by decide))⟩

theorem ldSTVx (x : Reg) : Statement (.ldSTVx x) :=
  ⟨_, rfl, beq_iff_eq.mpr ((wordXNN_and_F0FF _ _ _).trans (by decide))⟩

theorem addI (x : Reg) : Statement (.addI x) :=
  ⟨_, rfl, beq_iff_eq.mpr ((wordXNN_and_F0FF _ _ _).trans (by decide))⟩

theorem ldF (x : Reg) : Statement (.ldF x) :=
  ⟨_, rfl, beq_iff_eq.mpr ((wordXNN_and_F0FF _ _ _).trans (by decide))⟩

theorem ldB (x : Reg) : Statement (.ldB x) :=
  ⟨_, rfl, beq_iff_eq.mpr ((wordXNN_and_F0FF _ _ _).trans (by decide))⟩

theorem storeRegs (x : Reg) : Statement (.storeRegs x) :=
  ⟨_, rfl, beq_iff_eq.mpr ((wordXNN_and_F0FF _ _ _).trans (by decide))⟩

theorem loadRegs (x : Reg) : Statement (.loadRegs x) :=
  ⟨_, rfl, beq_iff_eq.mpr ((wordXNN_and_F0FF _ _ _).trans (by decide))⟩

end Sys2Proof.Laws.RowMatch
end

