-- ==== Sys2Proof/Machine/Assembly.lean ====
section
/-! DEFINITION. The assembler spelling of an instruction (spec/30_encoding.md R97). It carries no meaning (D31): nothing else
in the model reads it. -/

namespace Sys2Proof.Machine

/-- One hex digit. -/
def hexDigit (n : Nat) : String :=
  ["0", "1", "2", "3", "4", "5", "6", "7", "8", "9", "A", "B", "C", "D", "E", "F"].getD n "?"

/-- `V0`..`VF`. -/
def asmReg (x : Reg) : String := "V" ++ hexDigit x.val

/-- An 8-bit immediate, two hex digits as in "LD V0, 01". -/
def asmByte (b : Byte) : String := hexDigit (b.toNat / 16) ++ hexDigit (b.toNat % 16)

/-- A 12-bit address, three hex digits after 0x as in "CALL 0x210". -/
def asmAddr (a : Addr12) : String :=
  "0x" ++ hexDigit (a.toNat / 256) ++ hexDigit (a.toNat / 16 % 16) ++ hexDigit (a.toNat % 16)

/-- A two-operand line. -/
def asm2 (mnemonic a b : String) : String := mnemonic ++ " " ++ a ++ ", " ++ b

/-- The assembler line of an instruction; BNNN is spelled by the register the quirk selects (R97). -/
def asmLine (q : Quirks) : Instr → String
  | .cls => "CLS"
  | .ret => "RET"
  | .jp nnn => "JP " ++ asmAddr nnn
  | .call nnn => "CALL " ++ asmAddr nnn
  | .seImm x nn => asm2 "SE" (asmReg x) (asmByte nn)
  | .sneImm x nn => asm2 "SNE" (asmReg x) (asmByte nn)
  | .seReg x y => asm2 "SE" (asmReg x) (asmReg y)
  | .ldImm x nn => asm2 "LD" (asmReg x) (asmByte nn)
  | .addImm x nn => asm2 "ADD" (asmReg x) (asmByte nn)
  | .ldReg x y => asm2 "LD" (asmReg x) (asmReg y)
  | .orReg x y => asm2 "OR" (asmReg x) (asmReg y)
  | .andReg x y => asm2 "AND" (asmReg x) (asmReg y)
  | .xorReg x y => asm2 "XOR" (asmReg x) (asmReg y)
  | .addReg x y => asm2 "ADD" (asmReg x) (asmReg y)
  | .sub x y => asm2 "SUB" (asmReg x) (asmReg y)
  | .shr x y => asm2 "SHR" (asmReg x) (asmReg y)
  | .subn x y => asm2 "SUBN" (asmReg x) (asmReg y)
  | .shl x y => asm2 "SHL" (asmReg x) (asmReg y)
  | .sneReg x y => asm2 "SNE" (asmReg x) (asmReg y)
  | .ldI nnn => asm2 "LD" "I" (asmAddr nnn)
  | .jpV0 nnn => asm2 "JP" (asmReg (if q.jumpVx then regOf (nnn.extractLsb' 8 4) else 0)) (asmAddr nnn)
  | .rnd x nn => asm2 "RND" (asmReg x) (asmByte nn)
  | .drw x y n => asm2 "DRW" (asmReg x) (asmReg y) ++ ", " ++ hexDigit n.toNat
  | .skp x => "SKP " ++ asmReg x
  | .sknp x => "SKNP " ++ asmReg x
  | .ldVxDT x => asm2 "LD" (asmReg x) "DT"
  | .ldVxK x => asm2 "LD" (asmReg x) "K"
  | .ldDTVx x => asm2 "LD" "DT" (asmReg x)
  | .ldSTVx x => asm2 "LD" "ST" (asmReg x)
  | .addI x => asm2 "ADD" "I" (asmReg x)
  | .ldF x => asm2 "LD" "F" (asmReg x)
  | .ldB x => asm2 "LD" "B" (asmReg x)
  | .storeRegs x => asm2 "LD" "[I]" (asmReg x)
  | .loadRegs x => asm2 "LD" (asmReg x) "[I]"

end Sys2Proof.Machine
end

