-- ==== Sys2Proof/Tests/Slice0.lean ====
section
/-! SUPPORT. The model's own tests. Every expected value is a vector of spec/95_test_vectors.md, named in the docstring, or is
worked by hand from the rule named there; each test is one step or one transaction. Then a witness for every hypothesis of
Obligations.lean. -/

namespace Sys2Proof.Tests

open Sys2Proof Sys2Proof.Machine

/-! ### Helpers -/

def allOff : Quirks := ⟨false, false, false, false, false⟩
def allOn : Quirks := ⟨true, true, true, true, true⟩

/-- The start of the vectors: "all quirks are false, FONT_BASE = none, every register, I and memory byte not named is 0". -/
def base : State := { State.reset with quirks := allOff, fontBase := none }

def nextOf : Host.Outcome State Fault Refusal → Option State
  | .next t => some t
  | .fault _ => none
  | .refused _ => none

/-- One step with the word w at PC. -/
def run1 (s : State) (w : Nat) : Option State := nextOf (step (s.withFetchWord 16 w))

/-! ### WellFormed: the one check refuses an ill-formed term -/

/-- FX29 does not exist on a machine with FONT_BASE = none (R188). -/
theorem test_wellFormed_refuses_ldF : (Instr.ldF 0).wellFormed none = false := by decide

theorem test_wellFormed_accepts_ldF : (Instr.ldF 0).wellFormed (some 0x050) = true := by decide

/-! ### Decoding: every constructor from a word written out from the encodings of 30_encoding.md R84 and R87 -/

theorem test_decode_cls : decodeTableWord 16 0b0000000011100000 = some (.cls) := by decide
theorem test_decode_ret : decodeTableWord 16 0b0000000011101110 = some (.ret) := by decide
theorem test_decode_jp : decodeTableWord 16 0b0001_001000110100 = some (.jp 0x234) := by decide
theorem test_decode_call : decodeTableWord 16 0b0010_001100000000 = some (.call 0x300) := by decide
theorem test_decode_seImm : decodeTableWord 16 0b0011_0011_00010000 = some (.seImm 3 0x10) := by decide
theorem test_decode_sneImm : decodeTableWord 16 0b0100_1111_10000001 = some (.sneImm 15 0x81) := by decide
theorem test_decode_seReg : decodeTableWord 16 0b0101_0001_0010_0000 = some (.seReg 1 2) := by decide
theorem test_decode_ldImm : decodeTableWord 16 0b0110_0001_00000101 = some (.ldImm 1 0x05) := by decide
theorem test_decode_addImm : decodeTableWord 16 0b0111_0010_00100000 = some (.addImm 2 0x20) := by decide
theorem test_decode_ldReg : decodeTableWord 16 0b1000_0000_0001_0000 = some (.ldReg 0 1) := by decide
theorem test_decode_orReg : decodeTableWord 16 0b1000_1010_0001_0001 = some (.orReg 10 1) := by decide
theorem test_decode_andReg : decodeTableWord 16 0b1000_0000_1011_0010 = some (.andReg 0 11) := by decide
theorem test_decode_xorReg : decodeTableWord 16 0b1000_0110_0001_0011 = some (.xorReg 6 1) := by decide
theorem test_decode_addReg : decodeTableWord 16 0b1000_0000_0001_0100 = some (.addReg 0 1) := by decide
theorem test_decode_sub : decodeTableWord 16 0b1000_0111_0001_0101 = some (.sub 7 1) := by decide
theorem test_decode_shr : decodeTableWord 16 0b1000_0000_0001_0110 = some (.shr 0 1) := by decide
theorem test_decode_subn : decodeTableWord 16 0b1000_0100_0101_0111 = some (.subn 4 5) := by decide
theorem test_decode_shl : decodeTableWord 16 0b1000_0011_1100_1110 = some (.shl 3 12) := by decide
theorem test_decode_sneReg : decodeTableWord 16 0b1001_1010_1011_0000 = some (.sneReg 10 11) := by decide
theorem test_decode_ldI : decodeTableWord 16 0b1010_001100000000 = some (.ldI 0x300) := by decide
theorem test_decode_jpV0 : decodeTableWord 16 0b1011_001011111111 = some (.jpV0 0x2FF) := by decide
theorem test_decode_rnd : decodeTableWord 16 0b1100_0011_00001111 = some (.rnd 3 0x0F) := by decide
theorem test_decode_drw : decodeTableWord 16 0b1101_0101_1010_0011 = some (.drw 5 10 3) := by decide
theorem test_decode_skp : decodeTableWord 16 0b1110_0001_10011110 = some (.skp 1) := by decide
theorem test_decode_sknp : decodeTableWord 16 0b1110_0010_10100001 = some (.sknp 2) := by decide
theorem test_decode_ldVxDT : decodeTableWord 16 0b1111_0101_00000111 = some (.ldVxDT 5) := by decide
theorem test_decode_ldVxK : decodeTableWord 16 0b1111_0011_00001010 = some (.ldVxK 3) := by decide
theorem test_decode_ldDTVx : decodeTableWord 16 0b1111_0101_00010101 = some (.ldDTVx 5) := by decide
theorem test_decode_ldSTVx : decodeTableWord 16 0b1111_0001_00011000 = some (.ldSTVx 1) := by decide
theorem test_decode_addI : decodeTableWord 16 0b1111_0010_00011110 = some (.addI 2) := by decide
theorem test_decode_ldF : decodeTableWord 16 0b1111_0011_00101001 = some (.ldF 3) := by decide
theorem test_decode_ldB : decodeTableWord 16 0b1111_0000_00110011 = some (.ldB 0) := by decide
theorem test_decode_storeRegs : decodeTableWord 16 0b1111_0001_01010101 = some (.storeRegs 1) := by decide
theorem test_decode_loadRegs : decodeTableWord 16 0b1111_0010_01100101 = some (.loadRegs 2) := by decide

/-! ### One step of each instruction -/

/-- Vector DRW-10. -/
theorem test_cls :
    (run1 ((base.setV vF 0x42).setFb (FrameBuffer.blank.toggle 3 4)) 0x00E0).map (fun t => (t.fb.pixel 3 4, t.getV vF, t.result))
      = some (false, 0x42, .ok) := by decide

/-- Vector CF-7. -/
theorem test_ret :
    (run1 (((base.setPc 0x300).setSp 2).setStack ((Vector.replicate 16 0).set 1 0x456)) 0x00EE).map (fun t => (t.sp.val, t.pc, t.stack[1], t.result))
      = some (1, 0x456, 0x456, .ok) := by decide

/-- Vector CF-6. -/
theorem test_ret_empty :
    (run1 (base.setPc 0x300) 0x00EE).map (fun t => (t.sp.val, t.pc, t.result))
      = some (0, 0x300, .err .stackUnderflow) := by decide

/-- Vector CF-1. -/
theorem test_jp :
    (run1 (base) 0x1ABC).map (fun t => (t.pc, t.result))
      = some (0xABC, .ok) := by decide

/-- Vector CF-2. -/
theorem test_jp_self :
    (run1 (base) 0x1200).map (fun t => (t.pc, t.result))
      = some (0x200, .ok) := by decide

/-- Vector CF-5. -/
theorem test_call_wrap :
    (run1 ((base.setPc 0xFFE).setSp 3) 0x2300).map (fun t => (t.stack[3], t.sp.val, t.pc, t.result))
      = some (0x000, 4, 0x300, .ok) := by decide

/-- Vector CF-4. -/
theorem test_call_full :
    (run1 ((base.setPc 0x400).setSp 16) 0x2300).map (fun t => (t.sp.val, t.pc, t.result))
      = some (16, 0x400, .err .stackOverflow) := by decide

/-- Vector CF-8. -/
theorem test_seImm_taken :
    (run1 (base.setV 3 0x10) 0x3310).map (fun t => (t.pc, t.result))
      = some (0x204, .ok) := by decide

/-- Vector CF-16. -/
theorem test_seImm_wrap :
    (run1 (base.setPc 0xFFC) 0x3000).map (fun t => (t.pc, t.result))
      = some (0x000, .ok) := by decide

/-- Vector CF-10. -/
theorem test_sneImm_taken :
    (run1 (base.setV 3 0x11) 0x4310).map (fun t => (t.pc, t.result))
      = some (0x204, .ok) := by decide

/-- Vector CF-11. -/
theorem test_sneImm_untaken :
    (run1 (base.setV 3 0x10) 0x4310).map (fun t => (t.pc, t.result))
      = some (0x202, .ok) := by decide

/-- Vector CF-12. -/
theorem test_seReg :
    (run1 ((base.setV 1 7).setV 2 7) 0x5120).map (fun t => (t.pc, t.result))
      = some (0x204, .ok) := by decide

/-- Vector ALU-1. -/
theorem test_ldImm :
    (run1 (base) 0x6AFF).map (fun t => (t.getV 10, t.pc, t.result))
      = some (0xFF, 0x202, .ok) := by decide

/-- Vector CYC-2. -/
theorem test_ldImm_wrapped_fetch :
    (run1 ((base.setPc 0xFFF)) 0x602A).map (fun t => (t.getV 0, t.pc, t.mem))
      = some (0x2A, 0x001, [(0, 0x2A), (0xFFF, 0x60)]) := by decide

/-- Vector ALU-2. -/
theorem test_addImm_no_flag :
    (run1 ((base.setV 0 0xFF).setV vF 0x33) 0x7001).map (fun t => (t.getV 0, t.getV vF))
      = some (0x00, 0x33) := by decide

/-- Vector ALU-3. -/
theorem test_addImm_vF :
    (run1 (base.setV vF 0x10) 0x7F05).map (fun t => (t.getV vF, t.result))
      = some (0x15, .ok) := by decide

/-- Vector ALU-4. -/
theorem test_ldReg :
    (run1 (base.setV 1 0x2A) 0x8010).map (fun t => (t.getV 0, t.getV 1))
      = some (0x2A, 0x2A) := by decide

/-- Vector ALU-14. -/
theorem test_or_quirk_off :
    (run1 ((base.setV vF 0x10).setV 1 0x01) 0x8F11).map (fun t => (t.getV vF, t.result))
      = some (0x11, .ok) := by decide

/-- Vector ALU-13. -/
theorem test_or_quirk_on :
    (run1 ({ ((base.setV 0 0x0F).setV 1 0xF0).setV vF 0x55 with quirks := allOn }) 0x8011).map (fun t => (t.getV 0, t.getV vF))
      = some (0xFF, 0x00) := by decide

/-- Vector ALU-11. -/
theorem test_and :
    (run1 ((base.setV 0 0x0F).setV 1 0xF0) 0x8012).map (fun t => (t.getV 0, t.getV 1))
      = some (0x00, 0xF0) := by decide

/-- Vector ALU-16. -/
theorem test_xor :
    (run1 ((base.setV 0 0xFF).setV 1 0x0F) 0x8013).map (fun t => (t.getV 0, t.getV vF))
      = some (0xF0, 0x00) := by decide

/-- Vector ALU-8. -/
theorem test_add_flag_last :
    (run1 ((base.setV vF 0xFF).setV 1 0x01) 0x8F14).map (fun t => (t.getV vF, t.getV 1))
      = some (1, 1) := by decide

/-- Vector ALU-10. -/
theorem test_add_reads_old_vF :
    (run1 ((base.setV 0 0x10).setV vF 0x01) 0x80F4).map (fun t => (t.getV 0, t.getV vF))
      = some (0x11, 0) := by decide

/-- Vector ALU-26. -/
theorem test_sub_borrow :
    (run1 ((base.setV 0 3).setV 1 5) 0x8015).map (fun t => (t.getV 0, t.getV vF))
      = some (0xFE, 0) := by decide

/-- Vector ALU-27. -/
theorem test_sub_equal :
    (run1 ((base.setV 0 7).setV 1 7) 0x8015).map (fun t => (t.getV 0, t.getV vF))
      = some (0, 1) := by decide

/-- Vector ALU-29. -/
theorem test_subn :
    (run1 ((base.setV 0 3).setV 1 5) 0x8017).map (fun t => (t.getV 0, t.getV vF))
      = some (2, 1) := by decide

/-- Vector ALU-30. -/
theorem test_subn_borrow :
    (run1 ((base.setV 0 5).setV 1 3) 0x8017).map (fun t => (t.getV 0, t.getV vF))
      = some (0xFE, 0) := by decide

/-- Vector ALU-19. -/
theorem test_shr_vy :
    (run1 ({ base.setV 1 0x03 with quirks := allOn }) 0x8016).map (fun t => (t.getV 0, t.getV vF, t.getV 1))
      = some (0x01, 1, 0x03) := by decide

/-- Vector ALU-24. -/
theorem test_shr_ignores_vy :
    (run1 ((base.setV 0 0x05).setV 1 0xFF) 0x8016).map (fun t => (t.getV 0, t.getV vF))
      = some (0x02, 1) := by decide

/-- Vector ALU-23. -/
theorem test_shl_vy :
    (run1 ({ base.setV 1 0x81 with quirks := allOn }) 0x801E).map (fun t => (t.getV 0, t.getV vF))
      = some (0x02, 1) := by decide

/-- Vector ALU-22. -/
theorem test_shl :
    (run1 (base.setV 0 0x41) 0x800E).map (fun t => (t.getV 0, t.getV vF))
      = some (0x82, 0) := by decide

/-- Vector CF-14. -/
theorem test_sneReg :
    (run1 ((base.setV 1 7).setV 2 8) 0x9120).map (fun t => (t.pc, t.result))
      = some (0x204, .ok) := by decide

/-- Vector MEM-1. -/
theorem test_ldI :
    (run1 (base) 0xA123).map (fun t => (t.i, t.pc))
      = some (0x123, 0x202) := by decide

/-- Vector DRV-6. -/
theorem test_jpV0 :
    (run1 (base.setV 0 0x02) 0xBFFF).map (fun t => (t.pc, t.result))
      = some (0x001, .ok) := by decide

/-- Vector DRV-5. -/
theorem test_jpV0_quirk :
    (run1 ({ (base.setV 0 0x04).setV 3 0x10 with quirks := allOn }) 0xB300).map (fun t => (t.pc, t.result))
      = some (0x310, .ok) := by decide

/-- Vector DRV-2. -/
theorem test_rnd_draws :
    (run1 (base.setV 4 0x55) 0xC300).map (fun t => (t.draws, t.pc, t.getV 4, t.result))
      = some (1, 0x202, 0x55, .ok) := by decide

/-- Vector DRW-12. -/
theorem test_drw_wraps :
    (run1 (((base.setI 0x300).setV 0 70).setMem [(0x300, 0xF0)]) 0xD011).map (fun t => (t.fb.pixel 6 0, t.fb.pixel 9 0, t.fb.pixel 10 0, t.getV vF))
      = some (true, true, false, 0) := by decide

/-- Vector DRW-9. -/
theorem test_drw_collision :
    (run1 (((base.setI 0x300).setFb (FrameBuffer.blank.toggle 1 0)).setMem [(0x300, 0xF0)]) 0xD011).map (fun t => (t.fb.pixel 0 0, t.fb.pixel 1 0, t.fb.pixel 3 0, t.getV vF))
      = some (true, false, true, 1) := by decide

/-- Vector TI-9. -/
theorem test_skp_big_index :
    (run1 ({ base.setV 1 0x10 with key := Vector.replicate 16 true }) 0xE19E).map (fun t => (t.pc, t.result))
      = some (0x202, .ok) := by decide

/-- Vector TI-7. -/
theorem test_skp :
    (run1 ({ base.setV 1 5 with key := (Vector.replicate 16 false).set 5 true }) 0xE19E).map (fun t => (t.pc, t.result))
      = some (0x204, .ok) := by decide

/-- Vector TI-12. -/
theorem test_sknp_big_index :
    (run1 (base.setV 1 0x10) 0xE1A1).map (fun t => (t.pc, t.result))
      = some (0x204, .ok) := by decide

/-- Vector TI-11. -/
theorem test_sknp :
    (run1 ({ base.setV 1 5 with key := (Vector.replicate 16 false).set 5 true }) 0xE1A1).map (fun t => (t.pc, t.result))
      = some (0x202, .ok) := by decide

/-- Vector TI-1. -/
theorem test_ldVxDT :
    (run1 (base.setDt 0x3C) 0xF507).map (fun t => (t.getV 5, t.dt))
      = some (0x3C, 0x3C) := by decide

/-- Vector TI-13. -/
theorem test_ldVxK_waits :
    (run1 (base) 0xF30A).map (fun t => (t.pc, t.getV 3, t.result))
      = some (0x200, 0, .ok) := by decide

/-- Vector TI-14. -/
theorem test_ldVxK_lowest :
    (run1 ({ base with newKey := ((Vector.replicate 16 false).set 3 true).set 10 true }) 0xF50A).map (fun t => (t.getV 5, t.pc, t.newKey[3]))
      = some (3, 0x202, true) := by decide

/-- Vector TI-2. -/
theorem test_ldDTVx :
    (run1 (base.setV 5 0x3C) 0xF515).map (fun t => (t.dt, t.result))
      = some (0x3C, .ok) := by decide

/-- Vector TI-3. -/
theorem test_ldSTVx :
    (run1 (base.setV 1 0x02) 0xF118).map (fun t => (t.st, t.result))
      = some (0x02, .ok) := by decide

/-- Vector MEM-2. -/
theorem test_addI_wraps :
    (run1 (((base.setI 0xFFF).setV 0 0x02).setV vF 0x77) 0xF01E).map (fun t => (t.i, t.getV vF))
      = some (0x001, 0x77) := by decide

/-- Vector MEM-3. -/
theorem test_addI :
    (run1 ((base.setI 0x300).setV vF 0x10) 0xFF1E).map (fun t => (t.i, t.result))
      = some (0x310, .ok) := by decide

/-- Vector MEM-10. -/
theorem test_ldF_none :
    (run1 (base) 0xF029).map (fun t => (t.pc, t.i, t.result))
      = some (0x200, 0, .err .unknownOpcode) := by decide

/-- Vector MEM-12. -/
theorem test_ldF_some :
    (run1 ({ base.setV 3 0x0A with fontBase := some 0x050 }) 0xF329).map (fun t => (t.i, t.result))
      = some (0x082, .ok) := by decide

/-- Vector DRV-12. -/
theorem test_ldB :
    (run1 ((base.setI 0xFFF).setV 0 254) 0xF033).map (fun t => (t.mem.read 0xFFF, t.mem.read 0x000, t.mem.read 0x001, t.i))
      = some (2, 5, 4, 0xFFF) := by decide

/-- Vector MEM-6. -/
theorem test_storeRegs_wraps :
    (run1 ({ ((((base.setI 0xFFE).setV 0 0xA).setV 1 0xB).setV 2 0xC).setV 3 0xD with quirks := allOn }) 0xF355).map (fun t => (t.mem.read 0xFFE, t.mem.read 0xFFF, t.mem.read 0x000, t.mem.read 0x001, t.i))
      = some (0xA, 0xB, 0xC, 0xD, 0x002) := by decide

/-- Vector MEM-4. -/
theorem test_storeRegs :
    (run1 ((((base.setI 0x300).setV 0 1).setV 1 2).setV 2 3) 0xF255).map (fun t => (t.mem.read 0x302, t.mem.read 0x303, t.i))
      = some (3, 0, 0x300) := by decide

/-- Vector P3. -/
theorem test_loadRegs :
    (run1 ((base.setI 0x300).setMem [(0x300, 2), (0x301, 5), (0x302, 4), (0x303, 9)]) 0xF265).map (fun t => (t.getV 0, t.getV 1, t.getV 2, t.getV 3, t.i))
      = some (2, 5, 4, 0, 0x300) := by decide

/-- Vector MEM-9. -/
theorem test_loadRegs_quirk :
    (run1 ({ (base.setI 0x400).setMem [(0x400, 0x99)] with quirks := allOn }) 0xF065).map (fun t => (t.getV 0, t.i))
      = some (0x99, 0x401) := by decide

/-- Vector CYC-4. -/
theorem test_unknown :
    (run1 (base) 0x0000).map (fun t => (t.pc, t.result))
      = some (0x200, .err .unknownOpcode) := by decide

/-- Vector CYC-3. -/
theorem test_odd_pc :
    (run1 (base.setPc 0x201) 0x6A07).map (fun t => (t.getV 10, t.pc))
      = some (0x07, 0x203) := by decide

/-! ### Clipping, reset, transactions, assembler -/

/-- Vector DRW-11: an origin beyond the edge draws nothing under clipping. -/
theorem test_drw_clips :
    (run1 { ((base.setI 0x300).setV 0 70).setMem [(0x300, 0xF0)] with quirks := allOn } 0xD011).map
      (fun t => (t.fb.pixel 6 0, t.fb.pixel 9 0, t.getV vF)) = some (false, false, 0) := by decide

/-- Vector DRV-2: a zero mask gives 0 whatever the draw. -/
theorem test_rnd_zero_mask : ∀ t, nextOf (exec (.rnd 3 0) base) = some t → t.getV 3 = 0 := by
  rintro t h
  obtain rfl := Option.some.inj h
  show Config.randomByte 0 &&& 0#8 = 0#8
  simp

/-- Vector RST-4: a step with no ROM. -/
theorem test_reset_step :
    (nextOf (step State.reset)).map (fun t => (t.pc, t.result)) = some (0x200, .err .unknownOpcode) := by decide

/-- Vector RST-3. -/
theorem test_loadRom :
    (base.loadRom [0x12, 0x00, 0x34]).map (fun t => t.mem) = some [(0x200, 0x12), (0x202, 0x34)] := by decide

/-- Vector TI-5 and TI-4: count down, and stay at 0. -/
theorem test_tickTimers :
    (((base.setDt 0xFF).setSt 0x10).tickTimers.dt, ((base.setDt 0xFF).setSt 0x10).tickTimers.st, base.tickTimers.dt)
      = (0xFE, 0x0F, 0) := by decide

/-- Vectors TI-15, TI-16 and TI-17: the edge, a repeated event, an index that is no key. -/
theorem test_keyDown :
    ((base.keyDown 5).key[5], (base.keyDown 5).newKey[5], (base.keyDown 5).clearNewlyPressed.newKey[5],
      ((base.keyDown 5).clearNewlyPressed.keyDown 5).newKey[5]) = (true, true, false, false) ∧
    base.keyDown 16 = base := by decide

/-- Vector TI-18. -/
theorem test_keyUp : (((base.keyDown 5).keyUp 5).key[5], ((base.keyDown 5).keyUp 5).newKey[5]) = (false, true) := by
  decide

/-- A load after the first step is refused by the interface (R270). -/
theorem test_late_loadRom :
    transact (.loadRom [0x12]) ⟨base, true⟩ = .next (⟨base, true⟩, .rejected) := rfl

/-- R21: bit 0 is shift_vy and bit 4 is clip. -/
theorem test_pack : Quirks.pack ⟨true, false, false, false, true⟩ = 0x11 := by decide

/-- R251. -/
theorem test_codes :
    [Result.ok.code, (Result.err .stackOverflow).code, (Result.err .stackUnderflow).code,
      (Result.err .unknownOpcode).code] = [0, 1, 2, 3] := by decide

/-- R97 and the listings of 95_test_vectors.md section 3. -/
theorem test_asm : [asmLine allOff (.ldImm 1 0x05), asmLine allOff (.call 0x210), asmLine allOff (.loadRegs 2),
    asmLine allOff (.drw 0 1 1), asmLine allOn (.jpV0 0x2FF)]
      = ["LD V1, 05", "CALL 0x210", "LD V2, [I]", "DRW V0, V1, 1", "JP V2, 0x2FF"] := by decide

/-- Step, withFetchWord and the core agree on what runs first. -/
theorem test_core_first_step :
    (nextOf (Sys2Proof.core.step (State.reset.withFetchWord 16 0x6001))).map (fun t => (t.getV 0, t.pc))
      = some (0x01, 0x202) := by decide

/-! ### A witness for every hypothesis of the obligations -/

/-- EncodeOfDecode. -/
theorem witness_EncodeOfDecode : decode 0x8014 = .ok (.addReg 0 1) := by decide

/-- OpcodeRowsDisjoint: one word, the row it lies in twice. -/
theorem witness_OpcodeRowsDisjoint :
    opcodeRows[13]? = some ⟨"ADD_Vx__Vy", 0x8004, 0xF00F⟩ ∧
      (⟨"ADD_Vx__Vy", 0x8004, 0xF00F⟩ : OpcodeRow).covers 0x8014 = true := by decide

/-- DecodeFollowsRows, first clause at a word of a row. -/
theorem witness_DecodeFollowsRows_row :
    (⟨"SHL_Vx__Vy", 0x800E, 0xF00F⟩ : OpcodeRow) ∈ opcodeRows ∧
      (⟨"SHL_Vx__Vy", 0x800E, 0xF00F⟩ : OpcodeRow).covers 0x8FFE = true := by decide

/-- DecodeFollowsRows, second clause at a word beside a row. -/
theorem witness_DecodeFollowsRows_none : ∀ r ∈ opcodeRows, r.covers 0x800F = false := by decide

/-- StepRunsDecoded, the first clause: the word across the end of memory is what the two bytes spell, and it decodes. -/
theorem witness_StepRunsDecoded :
    (0x6001 : Word).toNat = 256 * (((base.setPc 0xFFF).withFetchWord 16 0x6001).mem.read 0xFFF).toNat +
        (((base.setPc 0xFFF).withFetchWord 16 0x6001).mem.read (BitVec.ofNat 16 ((0xFFF + 1) % 4096))).toNat ∧
      (base.setPc 0xFFF).advance = { base with pc := BitVec.ofNat 16 ((0xFFF + 2) % 4096) } ∧
      decode 0x6001 = .ok (.ldImm 0 1) := by decide

/-- StepRunsDecoded, the second clause. -/
theorem witness_StepRunsDecoded_none :
    (0 : Word).toNat = 256 * (base.mem.read base.pc).toNat +
        (base.mem.read (BitVec.ofNat 16 ((base.pc.toNat + 1) % 4096))).toNat ∧
      base.advance = { base with pc := BitVec.ofNat 16 ((base.pc.toNat + 2) % 4096) } ∧
      decode 0 = .error (.unknownOpcode 0) := by decide

/-- StepRunsDecoded, an instruction this machine does not have (vector DEC-10). -/
theorem witness_StepRunsDecoded_absent :
    (0xF029 : Word).toNat = 256 * ((base.withFetchWord 16 0xF029).mem.read 0x200).toNat +
        ((base.withFetchWord 16 0xF029).mem.read (BitVec.ofNat 16 ((0x200 + 1) % 4096))).toNat ∧
      decode 0xF029 = .ok (.ldF 0) ∧ (Instr.ldF 0).wellFormed (base.withFetchWord 16 0xF029).fontBase = false := by decide

/-- ErrorsArePrecise at both ends of the range of PC. -/
theorem witness_ErrorsArePrecise : base.pc.toNat < 4096 ∧ (base.setPc 0xFFF).pc.toNat < 4096 := by decide

/-- ErrorKinds, StepLeavesKeysAndQuirks: a step that answers. -/
theorem witness_step : (nextOf (step base)).isSome = true := by decide

/-- ErrorKinds, each error: the failing word is there with SP at its bound, and so is FX29 with FONT_BASE = none. -/
theorem witness_ErrorKinds :
    decode ((base.setSp 16).withFetchWord 16 0x2300).fetchWord = .ok (.call 0x300) ∧
      decode (base.withFetchWord 16 0x00EE).fetchWord = .ok .ret ∧ base.sp.val = 0 ∧
      decode (base.withFetchWord 16 0xF029).fetchWord = .ok (.ldF 0) ∧ base.fontBase = none := by decide

/-- ErrorRepeats. -/
theorem witness_ErrorRepeats :
    base.pc.toNat < 4096 ∧ step base = .next { base with result := .err .unknownOpcode } ∧
      ({ base with result := .err .unknownOpcode } : State).result = .err .unknownOpcode := ⟨by decide, rfl, rfl⟩

/-- ZeroWordIsUnknown. -/
theorem witness_ZeroWordIsUnknown : base.pc.toNat < 4096 ∧ base.mem.read base.pc = 0 ∧ base.mem.read (base.pc + 1) = 0 := by
  decide

/-- SelfJumpIsFixed (vector CF-2). -/
theorem witness_SelfJumpIsFixed : (base.withFetchWord 16 0x1200).AtSelfJump := ⟨0x200, by decide, by decide⟩

/-- StepKeepsInv and TransactionsKeepInv: a state in the invariant that has run. -/
theorem witness_Inv :
    ((base.setMem [(0x200, 0x60), (0xFFF, 1)]).setPc 0xFFF).Inv ∧ base.Inv ∧
      step (base.withFetchWord 16 0x6001)
        = .next (((base.withFetchWord 16 0x6001).advance.setV 0 1).completed) ∧
      (base.withFetchWord 16 0x6001).Inv :=
  ⟨⟨by decide, by decide, by decide, by decide⟩, ⟨by decide, by decide, by decide, by decide⟩, rfl,
    ⟨by decide, by decide, by decide, by decide⟩⟩

/-- TransactionsKeepInv: a transaction that is answered. -/
theorem witness_TransactionsKeepInv :
    transact .tickTimers ⟨base, false⟩ = .next (⟨base.tickTimers, false⟩, .nothing) := rfl

/-- WritersOfEachPart: each part is written by some instruction. -/
theorem witness_WritersOfEachPart :
    (nextOf (exec (.ldI 1) base)).map (fun t => decide (t.i ≠ base.i)) = some true ∧
      (nextOf (exec (.call 1) base)).map (fun t => decide (t.sp ≠ base.sp ∧ t.stack ≠ base.stack)) = some true ∧
      (nextOf (exec (.ldDTVx 0) (base.setV 0 1))).map (fun t => decide (t.dt ≠ base.dt)) = some true ∧
      (nextOf (exec (.ldSTVx 0) (base.setV 0 1))).map (fun t => decide (t.st ≠ base.st)) = some true ∧
      (nextOf (exec .cls (base.setFb (FrameBuffer.blank.toggle 0 0)))).map
        (fun t => decide (t.fb.pixel 0 0 ≠ true)) = some true ∧
      (nextOf (exec (.storeRegs 0) (base.setV 0 1))).map (fun t => decide (t.mem.read 0 ≠ base.mem.read 0)) = some true ∧
      (nextOf (exec (.rnd 0 0) base)).map (fun t => decide (t.draws ≠ base.draws)) = some true := by decide

/-- WritersOfRegisters, at a destination and at a flag. -/
theorem witness_WritersOfRegisters :
    (nextOf (exec (.ldImm 3 1) base)).map (fun t => decide (t.getV 3 ≠ base.getV 3)) = some true ∧
      (nextOf (exec (.sub 0 1) base)).map (fun t => decide (t.getV vF ≠ base.getV vF)) = some true := by decide

/-- ConstructionValues. -/
theorem witness_ConstructionValues :
    State.construct allOff none (Vector.replicate 512 0) = State.construct allOff none (Vector.replicate 512 0) := rfl

/-- CallPushesOrOverflows, CallThenReturn: each clause at its bound. -/
theorem witness_Call :
    (base.setSp 15).sp.val < 16 ∧ (base.setSp 15).pc.toNat < 4096 ∧ (base.setSp 16).sp.val = 16 := by decide

/-- CallThenReturn: the state right after the CALL, and the state after a nested CALL and RET in the subroutine, whose stale
entry differs from what the CALL left above SP. -/
theorem witness_CallThenReturn :
    nextOf (exec (.call 0x300) base) = some (base.pushPc.setPc 0x300).completed ∧
      (base.pushPc.setPc 0x300).pushPc.popPc.sp = (base.pushPc.setPc 0x300).completed.sp ∧
      (∀ j : Fin 16, j.val = base.sp.val →
        (base.pushPc.setPc 0x300).pushPc.popPc.stack[j] = (base.pushPc.setPc 0x300).completed.stack[j]) ∧
      (base.pushPc.setPc 0x300).pushPc.popPc.stack ≠ (base.pushPc.setPc 0x300).completed.stack := by decide

/-- ReturnPopsOrUnderflows: each clause at its bounds. -/
theorem witness_Return :
    (base.setSp 16).sp.val = (15 : Fin 16).val + 1 ∧ (base.setSp 1).sp.val = (0 : Fin 16).val + 1 ∧ base.sp.val = 0 := by
  decide

/-- ShiftByOne, the shifted value under both settings of the quirk. -/
theorem witness_ShiftByOne :
    (129 : Nat) = (if (base.setV 0 129).quirks.shiftVy then (base.setV 0 129).getV 1 else (base.setV 0 129).getV 0).toNat ∧
      (0 : Nat) = (if allOn.shiftVy then (base.setV 0 129).getV 1 else (base.setV 0 129).getV 0).toNat := by decide

/-- BlockStore, StoreThenLoad, StoreIsFetched, DecimalStore, RomLoad: a canonical memory that is not empty. -/
theorem witness_mem_wf : (base.setMem [(0x200, 0x60), (0xFFF, 1)]).mem.wf ∧ (1 : Reg) ≤ 1 := by decide

/-- BlockStore: an address inside and one outside the stored bytes, across the end of memory. -/
theorem witness_BlockStore :
    mask12 (blockAddr 0xFFF 1) = 0x000 ∧ (∀ k : Reg, k ≤ 1 → mask12 0x001 ≠ mask12 (blockAddr 0xFFF k.val)) := by decide

/-- StoreThenLoad, StoreIsFetched: the state right after the store. -/
theorem witness_StoreThenLoad :
    nextOf (exec (.storeRegs 1) base) = some (((base.setMem (storeBlock base.v base.i base.mem 2)).setI
      (base.indexAfter 1)).completed) := rfl

/-- DecimalStore: an address outside the three bytes, across the end of memory. -/
theorem witness_DecimalStore :
    mask12 0x002 ≠ mask12 0xFFF ∧ mask12 0x002 ≠ mask12 (0xFFF + 1) ∧ mask12 0x002 ≠ mask12 (0xFFF + 2) := by decide

/-- GlyphAddress, both clauses. -/
theorem witness_GlyphAddress :
    ({ base with fontBase := some 0xFFF } : State).fontBase = some 0xFFF ∧ base.fontBase = none := by decide

/-- KeySkips: a key that is down at the last index, and a value that names no key. -/
theorem witness_KeySkips :
    (∃ k : Fin 16, k.val = (((base.setV 1 15).keyDown 15).getV 1).toNat ∧ ((base.setV 1 15).keyDown 15).key[k] = true) ∧
      (∀ k : Fin 16, k.val = ((base.setV 1 16).getV 1).toNat → (base.setV 1 16).key[k] = false) := by decide

/-- KeyWait, WaitingStepIsFixed: a lowest new key, and none. -/
theorem witness_KeyWait :
    ((base.keyDown 9).newKey[(9 : Fin 16)] = true ∧ ∀ j : Fin 16, j < 9 → (base.keyDown 9).newKey[j] = false) ∧
      (∀ k : Fin 16, base.newKey[k] = false) ∧ base.pc.toNat < 4096 ∧
      decode (base.withFetchWord 16 0xF30A).fetchWord = .ok (.ldVxK 3) ∧
      (∀ k : Fin 16, (base.withFetchWord 16 0xF30A).newKey[k] = false) := by decide

/-- DrawSprite: a touched pixel and an untouched one, and an all-dark target. -/
theorem witness_DrawSprite :
    ((base.setI 0x300).setMem [(0x300, 0x80)]).Touched 0 1 1 0 0 ∧
      ¬((base.setI 0x300).setMem [(0x300, 0x80)]).Touched 0 1 0 0 0 :=
  ⟨⟨0, 0, by decide, by decide, by decide, by decide⟩, fun ⟨_, _, h, _⟩ => absurd h (Nat.not_lt_zero _)⟩

/-- DrawSprite: the last pixel of a sprite that wraps, at the corner. -/
theorem witness_DrawSprite_wraps :
    (((((base.setI 0x300).setV 0 63).setV 1 31).setMem [(0x300, 0x80), (0x301, 0x40)])).Touched 0 1 2 0 0 :=
  ⟨1, 1, by decide, by decide, by decide, by decide⟩

/-- DrawTwiceRestores. -/
theorem witness_DrawTwiceRestores : (0 : Reg) ≠ vF ∧ (14 : Reg) ≠ vF := by decide

/-- RomLoad: the largest payload, one too long, and a session that has stepped. -/
theorem witness_RomLoad :
    base.mem.wf ∧ (List.replicate 0xE00 (0 : Byte)).length ≤ 0xE00 ∧ (List.replicate 0xE01 (0 : Byte)).length > 0xE00 ∧
      (Session.mk base true).stepped = true ∧ (Session.mk base false).stepped = false :=
  ⟨by decide, by rw [List.length_replicate], by rw [List.length_replicate]; decide, rfl, rfl⟩

/-- SteppedIsRemembered, LateLoadIsRejected: a schedule with a failing step and a tick that is answered, and one transaction
that is no step. -/
theorem witness_LateLoadIsRejected :
    Transaction.step ∈ [Transaction.step, Transaction.tickTimers] ∧
      runTransactions [.step, .tickTimers] ⟨base, false⟩
        = .next (⟨{ base with result := .err .unknownOpcode }, true⟩, [.returned (.err .unknownOpcode), .nothing]) ∧
      transact .tickTimers ⟨base, true⟩ = .next (⟨base.tickTimers, true⟩, .nothing) :=
  ⟨List.mem_cons_self, rfl, rfl⟩

end Sys2Proof.Tests
end

section
/-! Construction (spec/10_state.md R40): each field of a constructed state, and the byte every address reads. -/

namespace Sys2Proof.Machine

@[simp] theorem Memory.wf_nil : Memory.wf [] := ⟨List.Pairwise.nil, by simp⟩

@[simp] theorem Memory.readCell_nil (a : Nat) : Memory.readCell [] a = 0 := rfl

/-- A load at address 0 into empty memory reads the loaded bytes, then 0. -/
theorem Memory.readCell_load_nil {bytes : List Byte} (h : bytes.length ≤ 4096) (a : Nat) :
    Memory.readCell (Memory.load [] 0 bytes) a = bytes.getD a 0 := by
  rw [Memory.readCell_load bytes a Memory.wf_nil (by omega), Memory.readCell_nil]
  split
  · simp
  · exact (List.getD_eq_default bytes 0 (by omega)).symm

section
variable (q : Quirks) (font : Option Addr12) (low : Vector Byte 512)

@[simp] theorem State.construct_v : (State.construct q font low).v = Vector.replicate 16 0 := rfl
@[simp] theorem State.construct_i : (State.construct q font low).i = 0 := rfl
@[simp] theorem State.construct_pc : (State.construct q font low).pc = 0x200 := rfl
@[simp] theorem State.construct_sp : (State.construct q font low).sp = 0 := rfl
@[simp] theorem State.construct_stack : (State.construct q font low).stack = Vector.replicate 16 0 := rfl
@[simp] theorem State.construct_dt : (State.construct q font low).dt = 0 := rfl
@[simp] theorem State.construct_st : (State.construct q font low).st = 0 := rfl
@[simp] theorem State.construct_fb : (State.construct q font low).fb = FrameBuffer.blank := rfl
@[simp] theorem State.construct_key : (State.construct q font low).key = Vector.replicate 16 false := rfl
@[simp] theorem State.construct_newKey : (State.construct q font low).newKey = Vector.replicate 16 false := rfl
@[simp] theorem State.construct_mem : (State.construct q font low).mem = Memory.load [] 0 low.toList := rfl
@[simp] theorem State.construct_quirks : (State.construct q font low).quirks = q := rfl
@[simp] theorem State.construct_fontBase : (State.construct q font low).fontBase = font := rfl

@[simp] theorem State.getV_construct (x : Reg) : (State.construct q font low).getV x = 0 := by
  simp [State.getV]

/-- Memory after construction is the low image at 0x000 to 0x1FF and 0 above it, seen through the address mask (R11). -/
theorem State.read_construct (a : Word) :
    (State.construct q font low).mem.read a = low.toList.getD (a.toNat % 4096) 0 := by
  rw [State.construct_mem, Memory.read, Memory.readCell_load_nil (by simp), toNat_mask12]

end

/-- Settles O20: the fields are those of `State.construct`, and memory is the load of the low image into empty memory. -/
theorem constructionValues : Obligations.ConstructionValues := by
  rintro q font low _ rfl
  have hmem (a : Word) (ha : a.toNat < 4096) :
      (State.construct q font low).mem.read a = low.toList.getD a.toNat 0 := by
    rw [State.read_construct, Nat.mod_eq_of_lt ha]
  refine ⟨State.getV_construct q font low, State.construct_i .., State.construct_pc .., ?sp, ?stack, State.construct_dt ..,
    State.construct_st .., ?pixels, ?keys, ?newKeys, hmem, State.construct_quirks .., State.construct_fontBase ..⟩
  case sp => simp
  case stack => simp
  case pixels => simp
  case keys => simp
  case newKeys => simp

end Sys2Proof.Machine
end

section
/-! Fetch (spec/20_memory.md R62, R63): the fetched word as a number. -/

namespace Sys2Proof.Machine

/-- The first byte of a word is its high half (R62). -/
theorem toNat_wordOfBytes (hi lo : Byte) : (wordOfBytes hi lo).toNat = 256 * hi.toNat + lo.toNat := by
  rw [wordOfBytes, BitVec.toNat_append, ← Nat.shiftLeft_add_eq_or_of_lt lo.isLt, Nat.shiftLeft_eq, Nat.mul_comm]

/-- The byte one past an address is the byte at that address plus one, modulo 4096 (R11, R63). -/
theorem Memory.read_add_one (m : Memory) (a : Word) :
    m.read (a + 1) = m.read (BitVec.ofNat 16 ((a.toNat + 1) % 4096)) := by
  apply Memory.read_congr
  have one : (1 : Word).toNat = 1 := rfl
  rw [BitVec.toNat_add, BitVec.toNat_ofNat, one]
  omega

/-- Settles O7: the second byte's address wraps at the mask of the read itself, so no bound on PC is needed. -/
theorem fetchIsBigEndian : Obligations.FetchIsBigEndian := by
  intro s
  rw [State.fetchWord, toNat_wordOfBytes, Memory.read_add_one]

end Sys2Proof.Machine
end

section
/-! Control flow (spec/41_control_flow.md): what each jump, call, return and skip answers, and the stack unit as numbers. -/

namespace Sys2Proof.Machine

/-! ### What the instructions answer -/

theorem exec_jp (nnn : Addr12) (s : State) : exec (.jp nnn) s = .next (s.setPc (wordOfAddr nnn)).completed := rfl

theorem exec_call_of_lt (nnn : Addr12) {s : State} (h : s.sp.val < 16) :
    exec (.call nnn) s = .next (s.pushPc.setPc (wordOfAddr nnn)).completed := by
  rw [exec, execCall, if_neg (Nat.ne_of_lt h)]

theorem exec_call_of_full (nnn : Addr12) {s : State} (h : s.sp.val = 16) :
    exec (.call nnn) s = .next (s.raised .stackOverflow) := by
  rw [exec, execCall, if_pos h]

theorem exec_ret_of_pos {s : State} (h : 0 < s.sp.val) : exec .ret s = .next s.popPc.completed := by
  rw [exec, execRet, if_neg (Nat.ne_of_gt h)]

theorem exec_ret_of_empty {s : State} (h : s.sp.val = 0) : exec .ret s = .next (s.raised .stackUnderflow) := by
  rw [exec, execRet, if_pos h]

/-! ### The stack push/pop unit -/

theorem State.val_sp_pushPc {s : State} (h : s.sp.val < 16) : s.pushPc.sp.val = s.sp.val + 1 := by
  rw [State.pushPc_sp, Fin.val_ofNat, Nat.mod_eq_of_lt (by omega)]

/-- A push puts PC in STACK[SP] and keeps every other entry (R30, R132). -/
theorem State.stack_pushPc (s : State) (j : Fin 16) :
    s.pushPc.stack[j] = if j.val = s.sp.val then s.pc else s.stack[j] := by
  rw [State.pushPc_stack, Fin.getElem_fin, Vector.getElem_setIfInBounds]
  simp [eq_comm]

theorem State.val_sp_popPc {s : State} {j : Fin 16} (h : s.sp.val = j.val + 1) : s.popPc.sp.val = j.val := by
  rw [State.popPc_sp, Fin.val_ofNat, Nat.mod_eq_of_lt (by omega)]
  omega

/-- A pop takes PC from the entry below SP (R133). -/
theorem State.pc_popPc {s : State} {j : Fin 16} (h : s.sp.val = j.val + 1) : s.popPc.pc = mask12 s.stack[j] := by
  simp [h, Vector.getD]

/-! ### Frames -/

/-- A jump changes PC only. -/
theorem frame_setPc (s : State) (a : Word) : Frame s (s.setPc a).completed [] [] := by
  refine ⟨by simp, ?_, by simp, by simp, by simp, by simp⟩
  intro p _; cases p <;> simp [Part.Same]

/-- A push and a jump change the stack and PC. -/
theorem frame_pushPc_setPc (s : State) (a : Word) : Frame s (s.pushPc.setPc a).completed [] [.stack] := by
  refine ⟨by simp, ?_, by simp, by simp, by simp, by simp⟩
  intro p hp; cases p <;> simp_all [Part.Same]

/-- A pop changes the stack and PC. -/
theorem frame_popPc (s : State) : Frame s s.popPc.completed [] [.stack] := by
  refine ⟨by simp, ?_, by simp, by simp, by simp, by simp⟩
  intro p hp; cases p <;> simp_all [Part.Same]

/-! ### Skips -/

/-- PC after a skip, taken or not, as a number (R130). -/
theorem State.toNat_pc_skipIf (s : State) (c : Bool) :
    (s.skipIf c).pc.toNat = if c = true then (s.pc.toNat + 2) % 4096 else s.pc.toNat := by
  have wrap : (mask12 (s.pc + 2)).toNat = (s.pc.toNat + 2) % 4096 := by
    have two : (2 : Word).toNat = 2 := rfl
    rw [toNat_mask12, BitVec.toNat_add, two]
    omega
  rw [State.skipIf_pc, apply_ite BitVec.toNat, wrap]

/-- An instruction that only skips does so exactly when the condition its test decides holds (R130). -/
theorem exec_skips_of_test {i : Instr} {s : State} {c : Bool} {p : Prop} [Decidable p]
    (hexec : exec i s = .next (s.skipIf c).completed) (hc : c = true ↔ p) :
    ∃ t, exec i s = .next t ∧ t.pc.toNat = (if p then (s.pc.toNat + 2) % 4096 else s.pc.toNat) ∧ t.result = .ok ∧
      Frame s t [] [] := by
  refine ⟨(s.skipIf c).completed, hexec, ?_, State.completed_result _, frame_skipIf s c⟩
  rw [State.completed_pc, State.toNat_pc_skipIf]
  exact if_congr hc rfl rfl

/-! ### The obligations -/

/-- Settles O22: the address field is the new PC, and a jump's frame is `frame_setPc`. -/
theorem jumpSetsPc : Obligations.JumpSetsPc := by
  intro nnn s
  exact ⟨_, exec_jp nnn s, toNat_wordOfAddr nnn, State.completed_result _, frame_setPc s _⟩

/-- Settles O23: below depth 16 the push is `State.stack_pushPc`; at depth 16 the error entry is `raises_raised`. -/
theorem callPushesOrOverflows : Obligations.CallPushesOrOverflows := by
  intro nnn s
  constructor
  · intro hlt
    exact ⟨_, exec_call_of_lt nnn hlt, toNat_wordOfAddr nnn, State.val_sp_pushPc hlt, State.stack_pushPc s,
      State.completed_result _, frame_pushPc_setPc s _⟩
  · intro hfull
    exact ⟨_, exec_call_of_full nnn hfull, raises_raised s _⟩

/-- Settles O24: above depth 0 the pop is `State.pc_popPc`; at depth 0 the error entry is `raises_raised`. -/
theorem returnPopsOrUnderflows : Obligations.ReturnPopsOrUnderflows := by
  intro s
  constructor
  · intro j hj
    have hpc : s.popPc.pc.toNat = s.stack[j].toNat % 4096 := by rw [State.pc_popPc hj, toNat_mask12]
    exact ⟨_, exec_ret_of_pos (by omega), hpc, State.val_sp_popPc hj, State.popPc_stack s, State.completed_result _,
      frame_popPc s⟩
  · intro hempty
    exact ⟨_, exec_ret_of_empty hempty, raises_raised s _⟩

/-- Settles O26: both instructions are skips, on the test of R134 and on its negation (R135). -/
theorem skipOnImmediate : Obligations.SkipOnImmediate := by
  intro x nn s
  have se : exec (.seImm x nn) s = .next (s.skipIf (s.getV x == nn)).completed := rfl
  have sne : exec (.sneImm x nn) s = .next (s.skipIf (s.getV x != nn)).completed := rfl
  exact ⟨exec_skips_of_test se beq_iff_eq, exec_skips_of_test sne bne_iff_ne⟩

/-- Settles O27: both instructions are skips, on the test of R136 and on its negation (R137). -/
theorem skipOnRegisters : Obligations.SkipOnRegisters := by
  intro x y s
  have se : exec (.seReg x y) s = .next (s.skipIf (s.getV x == s.getV y)).completed := rfl
  have sne : exec (.sneReg x y) s = .next (s.skipIf (s.getV x != s.getV y)).completed := rfl
  exact ⟨exec_skips_of_test se beq_iff_eq, exec_skips_of_test sne bne_iff_ne⟩

end Sys2Proof.Machine
end

section
/-! Register loads and the register ALU (spec/42_register_alu.md): the three shapes an instruction of the file has (a
register write alone, one followed by the logic-op quirk, one followed by a flag write), and the flags and shifts as
numbers. -/

namespace Sys2Proof.Machine

/-! ### What the instructions answer -/

section
variable (x y : Reg) (nn : Byte) (s : State)

theorem exec_ldImm : exec (.ldImm x nn) s = .next (s.setV x nn).completed := rfl

theorem exec_addImm : exec (.addImm x nn) s = .next (s.setV x (s.getV x + nn)).completed := rfl

theorem exec_ldReg : exec (.ldReg x y) s = .next (s.setV x (s.getV y)).completed := rfl

theorem exec_orReg : exec (.orReg x y) s = .next (s.setV x (s.getV x ||| s.getV y)).logicFlag.completed := rfl

theorem exec_andReg : exec (.andReg x y) s = .next (s.setV x (s.getV x &&& s.getV y)).logicFlag.completed := rfl

theorem exec_xorReg : exec (.xorReg x y) s = .next (s.setV x (s.getV x ^^^ s.getV y)).logicFlag.completed := rfl

theorem exec_addReg :
    exec (.addReg x y) s =
      .next ((s.setV x (s.getV x + s.getV y)).setFlag (carry (s.getV x) (s.getV y))).completed := rfl

theorem exec_shr :
    exec (.shr x y) s =
      .next ((s.setV x (s.shiftSource x y >>> 1)).setFlag (outRight (s.shiftSource x y))).completed := rfl

theorem exec_shl :
    exec (.shl x y) s =
      .next ((s.setV x (s.shiftSource x y <<< 1)).setFlag (outLeft (s.shiftSource x y))).completed := rfl

end

/-! ### The three shapes -/

/-- An instruction that writes one register and no flag (R153, R154, R155). -/
theorem exec_writes_register {i : Instr} {s : State} {x : Reg} {b : Byte}
    (hexec : exec i s = .next (s.setV x b).completed) :
    ∃ t, exec i s = .next t ∧ t.getV x = b ∧ t.pc = s.pc ∧ t.result = .ok ∧ Frame s t [x] [] := by
  refine ⟨_, hexec, ?_, by simp, State.completed_result _, frame_setV s x b⟩
  rw [State.getV_completed, State.getV_setV, if_pos rfl]

/-- A logic operation: the clear of VF under the quirk comes after the write of Vx (R151, R156). -/
theorem exec_writes_then_logicFlag {i : Instr} {s : State} {x : Reg} {b : Byte}
    (hexec : exec i s = .next (s.setV x b).logicFlag.completed) :
    ∃ t, exec i s = .next t ∧
      (∀ r, t.getV r = if s.quirks.logicClearsVf = true ∧ r = vF then 0 else if r = x then b else s.getV r) ∧
      t.pc = s.pc ∧ t.result = .ok ∧ Frame s t [x, vF] [] := by
  refine ⟨_, hexec, fun r => ?_, by simp, State.completed_result _, frame_setV_logicFlag s x b⟩
  rw [State.getV_completed, State.getV_logicFlag, State.getV_setV, State.setV_quirks]

/-- An instruction that writes Vx and then a flag to VF, with both values as numbers: the flag is what remains when x = F
(R151). -/
theorem exec_writes_then_flag {i : Instr} {s : State} {x : Reg} {b : Byte} {f : Bool} {value flag : Nat}
    (hexec : exec i s = .next ((s.setV x b).setFlag f).completed) (hvalue : b.toNat = value)
    (hflag : (flagByte f).toNat = flag) :
    ∃ t, exec i s = .next t ∧
      (∀ r, (t.getV r).toNat = if r = vF then flag else if r = x then value else (s.getV r).toNat) ∧
      t.pc = s.pc ∧ t.result = .ok ∧ Frame s t [x, vF] [] := by
  refine ⟨_, hexec, fun r => ?_, by simp, State.completed_result _, frame_setV_setFlag s x b f⟩
  rw [State.getV_completed, State.getV_setFlag, State.getV_setV, apply_ite BitVec.toNat, apply_ite BitVec.toNat, hvalue,
    hflag]

/-! ### The flags and the shifted values as numbers -/

theorem toNat_flagByte_carry (a b : Byte) :
    (flagByte (carry a b)).toNat = if a.toNat + b.toNat > 255 then 1 else 0 := by
  simp [toNat_flagByte]

/-- A shift left by one doubles modulo 256 (R166). -/
theorem toNat_shiftLeft_one (b : Byte) : (b <<< 1).toNat = 2 * b.toNat % 256 := by
  rw [BitVec.toNat_shiftLeft, Nat.shiftLeft_eq, Nat.pow_one, Nat.mul_comm]

/-- A shift right by one halves (R165). -/
theorem toNat_shiftRight_one (b : Byte) : (b >>> 1).toNat = b.toNat / 2 := by
  rw [BitVec.toNat_ushiftRight, Nat.shiftRight_eq_div_pow, Nat.pow_one]

/-! ### The obligations -/

/-- Settles O28: a register write of nn. -/
theorem loadImmediate : Obligations.LoadImmediate := by
  intro x nn s
  exact exec_writes_register (exec_ldImm x nn s)

/-- Settles O29: a register write of the 8-bit sum, which as a number is the sum mod 256. -/
theorem addImmediate : Obligations.AddImmediate := by
  intro x nn s
  obtain ⟨t, hexec, hsum, hrest⟩ := exec_writes_register (exec_addImm x nn s)
  exact ⟨t, hexec, by rw [hsum, BitVec.toNat_add], hrest⟩

/-- Settles O30: a register write of Vy. -/
theorem copyRegister : Obligations.CopyRegister := by
  intro x y s
  exact exec_writes_register (exec_ldReg x y s)

/-- Settles O31: OR, AND and XOR are one shape with three values. -/
theorem logicOperations : Obligations.LogicOperations := by
  intro x y s
  exact ⟨exec_writes_then_logicFlag (exec_orReg x y s), exec_writes_then_logicFlag (exec_andReg x y s),
    exec_writes_then_logicFlag (exec_xorReg x y s)⟩

/-- Settles O32: the value is the 8-bit sum, the flag the carry of the old operands. -/
theorem addRegisters : Obligations.AddRegisters := by
  intro x y s
  exact exec_writes_then_flag (exec_addReg x y s) (BitVec.toNat_add _ _) (toNat_flagByte_carry _ _)

/-- Settles O34: both shifts work on `State.shiftSource`, the byte the quirk chooses, and each flag is the bit of it that
is shifted out. -/
theorem shiftByOne : Obligations.ShiftByOne := by
  rintro x y s _ rfl
  exact ⟨exec_writes_then_flag (exec_shr x y s) (toNat_shiftRight_one _) (toNat_flagByte_outRight _),
    exec_writes_then_flag (exec_shl x y s) (toNat_shiftLeft_one _) (toNat_flagByte_outLeft _)⟩

end Sys2Proof.Machine
end

section
/-! Memory and index (spec/43_memory_index.md): what the two index writes and the two block transfers answer, with the
addresses of a transfer counted by registers. -/

namespace Sys2Proof.Machine

/-! ### What the instructions answer -/

section
variable (x : Reg) (nnn : Addr12) (s : State)

theorem exec_ldI : exec (.ldI nnn) s = .next (s.setI (wordOfAddr nnn)).completed := rfl

theorem exec_addI : exec (.addI x) s = .next (s.setI (mask12 (s.i + wordOfByte (s.getV x)))).completed := rfl

theorem exec_storeRegs :
    exec (.storeRegs x) s =
      .next ((s.setMem (storeBlock s.v s.i s.mem (x.val + 1))).setI (s.indexAfter x)).completed := rfl

theorem exec_loadRegs :
    exec (.loadRegs x) s =
      .next ((s.setRegs (loadBlock s.mem s.i s.v (x.val + 1))).setI (s.indexAfter x)).completed := rfl

end

/-! ### Index writes -/

/-- The 16-bit sum does not lose what the mask keeps: I + V[x] modulo 4096 (R181). -/
theorem toNat_mask12_add_wordOfByte (a : Word) (b : Byte) :
    (mask12 (a + wordOfByte b)).toNat = (a.toNat + b.toNat) % 4096 := by
  rw [toNat_mask12, BitVec.toNat_add, toNat_wordOfByte]
  omega

/-- An instruction that writes I only, with the value as a number (R180, R181). -/
theorem exec_writes_index {i : Instr} {s : State} {a : Word} {value : Nat}
    (hexec : exec i s = .next (s.setI a).completed) (hvalue : a.toNat = value) :
    ∃ t, exec i s = .next t ∧ t.i.toNat = value ∧ t.pc = s.pc ∧ t.result = .ok ∧ Frame s t [] [.index] :=
  ⟨_, hexec, hvalue, rfl, State.completed_result _, frame_setI s a⟩

/-! ### Block transfers, register by register -/

/-- A transfer of V0..Vx stores register k ≤ x at its address (R184). -/
theorem read_storeBlock_reg (s : State) (hm : s.mem.wf) {k x : Reg} (hk : k ≤ x) :
    (storeBlock s.v s.i s.mem (x.val + 1)).read (blockAddr s.i k.val) = s.getV k := by
  rw [read_storeBlock s.v s.i hm x.isLt (Nat.lt_succ_of_le hk)]
  simp [State.getV, Vector.getD]

/-- A transfer of V0..Vx stores nothing at an address that is not one of theirs (R184). -/
theorem read_storeBlock_other (s : State) {x : Reg} {a : Word}
    (ha : ∀ k : Reg, k ≤ x → mask12 a ≠ mask12 (blockAddr s.i k.val)) :
    (storeBlock s.v s.i s.mem (x.val + 1)).read a = s.mem.read a :=
  read_storeBlock_outside _ _ _ fun k hk => ha ⟨k, Nat.lt_of_lt_of_le hk x.isLt⟩ (Nat.le_of_lt_succ hk)

/-- A transfer of V0..Vx loads register r ≤ x and no other (R186). -/
theorem getV_setRegs_loadBlock (s : State) (x r : Reg) :
    (s.setRegs (loadBlock s.mem s.i s.v (x.val + 1))).getV r =
      if r ≤ x then s.mem.read (blockAddr s.i r.val) else s.getV r :=
  (getElem_loadBlock s.mem s.i s.v x.isLt r).trans (if_congr Nat.lt_succ_iff rfl rfl)

/-! ### Frames -/

/-- A write of memory and I changes those two. -/
theorem frame_setMem_setI (s : State) (m : Memory) (a : Word) :
    Frame s ((s.setMem m).setI a).completed [] [.index, .memory] := by
  refine ⟨by simp, ?_, by simp, by simp, by simp, by simp⟩
  intro p hp; cases p <;> simp_all [Part.Same]

/-- A write of the register file and I changes those two. -/
theorem frame_setRegs_setI (s : State) (v : Vector Byte 16) (a : Word) :
    Frame s ((s.setRegs v).setI a).completed (List.finRange 16) [.index] := by
  refine ⟨fun r hr => absurd (List.mem_finRange r) hr, ?_, by simp, by simp, by simp, by simp⟩
  intro p hp; cases p <;> simp_all [Part.Same]

/-! ### The obligations -/

/-- Settles O35: both are writes of I, of the address field and of the masked sum. -/
theorem indexWrites : Obligations.IndexWrites :=
  ⟨fun nnn s => exec_writes_index (exec_ldI nnn s) (toNat_wordOfAddr nnn),
    fun x s => exec_writes_index (exec_addI x s) (toNat_mask12_add_wordOfByte s.i (s.getV x))⟩

/-- Settles O36: the x + 1 ≤ 16 addresses are distinct modulo 4096, so no store overwrites an earlier one. -/
theorem blockStore : Obligations.BlockStore := by
  intro x s hm
  exact ⟨_, exec_storeRegs x s, fun k => read_storeBlock_reg s hm, fun a => read_storeBlock_other s, toNat_indexAfter s x,
    storeBlock_wf s.v s.i hm _, rfl, State.completed_result _, frame_setMem_setI s _ _⟩

/-- Settles O37: a load writes registers only, so every byte it reads is one of the memory before it. -/
theorem blockLoad : Obligations.BlockLoad := by
  intro x s
  refine ⟨_, exec_loadRegs x s, fun r => ?_, toNat_indexAfter s x, rfl, State.completed_result _,
    frame_setRegs_setI s _ _⟩
  rw [State.getV_completed, State.getV_setI, getV_setRegs_loadBlock]

end Sys2Proof.Machine
end

section
/-! Decimal store (spec/44_derived.md): FX33 is a block transfer of three bytes, the digits of Vx, so the laws of the block
store give its reads, its untouched bytes and its canonical form. -/

namespace Sys2Proof.Machine

/-! ### The three digits as numbers -/

theorem toNat_hundreds (v : Byte) : (hundreds v).toNat = v.toNat / 100 := by
  obtain ⟨-, htens, hunits, hsum⟩ := digits_spec v
  omega

theorem toNat_tens (v : Byte) : (tens v).toNat = v.toNat / 10 % 10 := by
  obtain ⟨-, htens, hunits, hsum⟩ := digits_spec v
  omega

theorem toNat_units (v : Byte) : (units v).toNat = v.toNat % 10 := by
  obtain ⟨-, htens, hunits, hsum⟩ := digits_spec v
  omega

/-! ### The digits as a block -/

/-- The digits of a byte in the first three places of a register file, so that `storeBlock` of length 3 transfers them
(R203). -/
def digitFile (v : Byte) : Vector Byte 16 := #v[hundreds v, tens v, units v] ++ Vector.replicate 13 (0 : Byte)

theorem blockAddr_zero (base : Word) : blockAddr base 0 = base := BitVec.add_zero base

/-- The memory FX33 leaves is the block store of the digits. -/
theorem exec_ldB (x : Reg) (s : State) :
    exec (.ldB x) s = .next (s.setMem (storeBlock (digitFile (s.getV x)) s.i s.mem 3)).completed := by
  rw [storeBlock, storeBlock, storeBlock, storeBlock, blockAddr_zero]
  rfl

section
variable (v : Byte) (base : Word) {m : Memory} (hm : m.wf)
include hm

theorem read_storeDigits_hundreds : (storeBlock (digitFile v) base m 3).read base = hundreds v := by
  have h := read_storeBlock (digitFile v) base hm (n := 3) (k := 0) (by decide) (by decide)
  rwa [blockAddr_zero] at h

theorem read_storeDigits_tens : (storeBlock (digitFile v) base m 3).read (base + 1) = tens v :=
  read_storeBlock (digitFile v) base hm (n := 3) (k := 1) (by decide) (by decide)

theorem read_storeDigits_units : (storeBlock (digitFile v) base m 3).read (base + 2) = units v :=
  read_storeBlock (digitFile v) base hm (n := 3) (k := 2) (by decide) (by decide)

end

/-- The digits are stored at I, I + 1 and I + 2 only. -/
theorem read_storeDigits_outside (v : Byte) (base : Word) (m : Memory) {a : Word} (h0 : mask12 a ≠ mask12 base)
    (h1 : mask12 a ≠ mask12 (base + 1)) (h2 : mask12 a ≠ mask12 (base + 2)) :
    (storeBlock (digitFile v) base m 3).read a = m.read a := by
  refine read_storeBlock_outside _ base m fun k hk => ?_
  match k, hk with
  | 0, _ => rwa [blockAddr_zero]
  | 1, _ => exact h1
  | 2, _ => exact h2

/-! ### Frame -/

/-- A write of memory changes memory only. -/
theorem frame_setMem (s : State) (m : Memory) : Frame s (s.setMem m).completed [] [.memory] := by
  refine ⟨by simp, ?_, by simp, by simp, by simp, by simp⟩
  intro p hp; cases p <;> simp_all [Part.Same]

/-! ### The obligation -/

/-- Settles O43: FX33 is the block store of the three digits, whose addresses are distinct modulo 4096, so no digit
overwrites an earlier one. -/
theorem decimalStore : Obligations.DecimalStore := by
  intro x s hm
  refine ⟨_, exec_ldB x s, ?_, ?_, ?_, fun a => read_storeDigits_outside _ s.i s.mem, storeBlock_wf _ s.i hm 3, rfl,
    State.completed_result _, frame_setMem s _⟩
  · exact (congrArg BitVec.toNat (read_storeDigits_hundreds _ s.i hm)).trans (toNat_hundreds _)
  · exact (congrArg BitVec.toNat (read_storeDigits_tens _ s.i hm)).trans (toNat_tens _)
  · exact (congrArg BitVec.toNat (read_storeDigits_units _ s.i hm)).trans (toNat_units _)

end Sys2Proof.Machine
end

section
/-! Timers and key wait (spec/45_timer_input.md): what the three timer moves and LD Vx, K answer. -/

namespace Sys2Proof.Machine

/-! ### What the instructions answer -/

section
variable (x : Reg) (s : State)

theorem exec_ldVxDT : exec (.ldVxDT x) s = .next (s.setV x s.dt).completed := rfl

theorem exec_ldDTVx : exec (.ldDTVx x) s = .next (s.setDt (s.getV x)).completed := rfl

theorem exec_ldSTVx : exec (.ldSTVx x) s = .next (s.setSt (s.getV x)).completed := rfl

end

theorem exec_ldVxK_of_some (x : Reg) {s : State} {k : Fin 16} (h : s.lowestNewKey = some k) :
    exec (.ldVxK x) s = .next (s.setV x (BitVec.ofNat 8 k.val)).completed := by
  rw [exec, execLdVxK, h]

theorem exec_ldVxK_of_none (x : Reg) {s : State} (h : s.lowestNewKey = none) :
    exec (.ldVxK x) s = .next s.rewind.completed := by
  rw [exec, execLdVxK, h]

/-! ### Values as numbers -/

/-- A rewind takes PC back by 2 modulo 4096 (R114). -/
theorem State.toNat_pc_rewind (s : State) : s.rewind.pc.toNat = (s.pc.toNat + 4094) % 4096 := by
  have two : (2 : Word).toNat = 2 := rfl
  rw [State.rewind_pc, toNat_mask12, BitVec.toNat_sub, two]
  omega

/-- A key index fits in a register (R216). -/
theorem toNat_byteOfKey (k : Fin 16) : (BitVec.ofNat 8 k.val).toNat = k.val := by
  rw [BitVec.toNat_ofNat, Nat.mod_eq_of_lt (by omega)]

/-! ### Frames -/

/-- A write of DT changes DT only. -/
theorem frame_setDt (s : State) (b : Byte) : Frame s (s.setDt b).completed [] [.delay] := by
  refine ⟨by simp, ?_, by simp, by simp, by simp, by simp⟩
  intro p hp; cases p <;> simp_all [Part.Same]

/-- A write of ST changes ST only. -/
theorem frame_setSt (s : State) (b : Byte) : Frame s (s.setSt b).completed [] [.sound] := by
  refine ⟨by simp, ?_, by simp, by simp, by simp, by simp⟩
  intro p hp; cases p <;> simp_all [Part.Same]

/-- A rewind changes PC only: it is a jump to the fetch address. -/
theorem frame_rewind (s : State) : Frame s s.rewind.completed [] [] := frame_setPc s _

/-! ### The obligations -/

/-- Settles O44: FX07 is a register write of DT, whose frame keeps DT itself; FX15 and FX18 write one timer each. -/
theorem timerMoves : Obligations.TimerMoves := by
  intro x s
  refine ⟨exec_writes_register (exec_ldVxDT x s), ?delay, ?sound⟩
  case delay => exact ⟨_, exec_ldDTVx x s, rfl, rfl, State.completed_result _, frame_setDt s _⟩
  case sound => exact ⟨_, exec_ldSTVx x s, rfl, rfl, State.completed_result _, frame_setSt s _⟩

/-- Settles O46: with a lowest new key FX0A is a register write of its index; with none it is the rewind. -/
theorem keyWait : Obligations.KeyWait := by
  intro x s
  constructor
  · intro k hnew hlowest
    have hk : s.lowestNewKey = some k := lowestNewKey_eq_some.mpr ⟨hnew, hlowest⟩
    obtain ⟨t, hexec, hkey, hrest⟩ := exec_writes_register (exec_ldVxK_of_some x hk)
    exact ⟨t, hexec, by rw [hkey, toNat_byteOfKey], hrest⟩
  · intro hnone
    have hwait : s.lowestNewKey = none := (lowestNewKey_eq_none s).mpr hnone
    exact ⟨_, exec_ldVxK_of_none x hwait, State.toNat_pc_rewind s, State.completed_result _, frame_rewind s⟩

end Sys2Proof.Machine
end

section
/-! Display (spec/46_display.md): what CLS answers, and the frame of a frame buffer write. -/

namespace Sys2Proof.Machine

theorem exec_cls (s : State) : exec .cls s = .next (s.setFb FrameBuffer.blank).completed := rfl

/-- A write of the frame buffer changes the pixels only. -/
theorem frame_setFb (s : State) (fb : FrameBuffer) : Frame s (s.setFb fb).completed [] [.pixels] := by
  refine ⟨by simp, ?_, by simp, by simp, by simp, by simp⟩
  intro p hp; cases p <;> simp_all [Part.Same]

/-- Settles O50: CLS writes the blank frame buffer, every pixel of which is unlit, and nothing else. -/
theorem clearScreen : Obligations.ClearScreen := by
  intro s
  have hunlit (c : Fin 64) (r : Fin 32) : (s.setFb FrameBuffer.blank).completed.fb.pixel c r = false := by
    rw [State.completed_fb, State.setFb_fb, FrameBuffer.pixel_blank]
  exact ⟨_, exec_cls s, hunlit, rfl, State.completed_result _, frame_setFb s _⟩

end Sys2Proof.Machine
end

section
/-! The errors of a step (spec/60_exceptions.md R250, R252): the cause of each error, that a step raises it exactly there, and
the state it leaves. -/

namespace Sys2Proof.Machine

/-! ### The step through the decoder -/

/-- The decoder rejects a word by its own name only (R96). -/
theorem eq_unknownOpcode_of_decode_error {w : Word} {e : DecodeError} (h : decode w = .error e) :
    e = .unknownOpcode w := by
  unfold decode at h
  split at h
  next => cases h
  next => exact (Except.error.inj h).symm

theorem step_of_decode_ok {s : State} {i : Instr} (h : decode s.fetchWord = .ok i) : step s = exec i s.advance := by
  rw [step, h]

theorem step_of_decode_error {s : State} {e : DecodeError} (h : decode s.fetchWord = .error e) :
    step s = .next (s.advance.raised .unknownOpcode) := by
  rw [step, h]

theorem exec_ldF_of_none (x : Reg) {s : State} (h : s.fontBase = none) :
    exec (.ldF x) s = .next (s.raised .unknownOpcode) := by
  rw [exec, execLdF, h]

/-! ### Where a step raises -/

/-- The cause of each error, in the state before the step (R250). -/
def State.FailsWith (s : State) : Fault → Prop
  | .stackOverflow => (∃ nnn, decode s.fetchWord = .ok (.call nnn)) ∧ s.sp.val = 16
  | .stackUnderflow => decode s.fetchWord = .ok .ret ∧ s.sp.val = 0
  | .unknownOpcode =>
    decode s.fetchWord = .error (.unknownOpcode s.fetchWord) ∨
      (∃ x, decode s.fetchWord = .ok (.ldF x)) ∧ s.fontBase = none

/-- A step that meets the cause of an error answers the error entry, from the advanced state (R252). -/
theorem step_of_failsWith {s : State} {e : Fault} (h : s.FailsWith e) : step s = .next (s.advance.raised e) := by
  cases e with
  | stackOverflow =>
    obtain ⟨⟨nnn, hcall⟩, hfull⟩ := h
    exact (step_of_decode_ok hcall).trans (exec_call_of_full nnn hfull)
  | stackUnderflow =>
    obtain ⟨hret, hempty⟩ := h
    exact (step_of_decode_ok hret).trans (exec_ret_of_empty hempty)
  | unknownOpcode =>
    obtain hreject | ⟨⟨x, hldF⟩, hnone⟩ := h
    · exact step_of_decode_error hreject
    · exact (step_of_decode_ok hldF).trans (exec_ldF_of_none x hnone)

/-- What a step can answer: Ok, or the error entry of an error whose cause it met (R250, R252). -/
theorem step_cases {s t : State} (h : step s = .next t) :
    t.result = .ok ∨ ∃ e, s.FailsWith e ∧ t = s.advance.raised e := by
  cases hd : decode s.fetchWord with
  | error e =>
    have hreject : s.FailsWith .unknownOpcode := .inl (eq_unknownOpcode_of_decode_error hd ▸ hd)
    rw [step_of_decode_error hd] at h
    exact .inr ⟨_, hreject, (Host.Outcome.next.inj h).symm⟩
  | ok i =>
    obtain ⟨u, hexec, hcases⟩ := exec_cases i s.advance
    rw [step_of_decode_ok hd, hexec] at h
    obtain rfl := Host.Outcome.next.inj h
    obtain hok | ⟨rfl, hempty, hu⟩ | ⟨nnn, rfl, hfull, hu⟩ | ⟨x, rfl, hnone, hu⟩ := hcases
    · exact .inl hok
    · exact .inr ⟨.stackUnderflow, ⟨hd, hempty⟩, hu⟩
    · exact .inr ⟨.stackOverflow, ⟨⟨nnn, hd⟩, hfull⟩, hu⟩
    · exact .inr ⟨.unknownOpcode, .inr ⟨⟨x, hd⟩, hnone⟩, hu⟩

/-- A step records an error exactly where the error has its cause. -/
theorem result_eq_err_iff_failsWith {s t : State} (h : step s = .next t) (e : Fault) :
    t.result = .err e ↔ s.FailsWith e := by
  constructor
  · intro herr
    obtain hok | ⟨e', hcause, rfl⟩ := step_cases h
    · cases hok.symm.trans herr
    · cases (State.raised_result s.advance e').symm.trans herr
      exact hcause
  · intro hcause
    obtain rfl := Host.Outcome.next.inj ((step_of_failsWith hcause).symm.trans h)
    exact State.raised_result s.advance e

/-- After the advance the error entry puts PC back to the fetch address, modulo 4096 (R252). -/
theorem State.toNat_pc_raised_advance (s : State) (e : Fault) :
    (s.advance.raised e).pc.toNat = s.pc.toNat % 4096 := by
  have two : (2 : Word).toNat = 2 := rfl
  rw [State.raised_pc, toNat_mask12, BitVec.toNat_sub, State.advance_pc, toNat_mask12, BitVec.toNat_add, two]
  omega

/-! ### The obligations -/

/-- Settles O10: the causes are `State.FailsWith`, met exactly by `result_eq_err_iff_failsWith`, and the state after an error
is the error entry. -/
theorem errorKinds : Obligations.ErrorKinds := by
  intro s t h
  have hcause := result_eq_err_iff_failsWith h
  refine ⟨hcause .stackOverflow, hcause .stackUnderflow, hcause .unknownOpcode, fun hnotOk => ?_⟩
  obtain hok | ⟨e, -, rfl⟩ := step_cases h
  · exact absurd hok hnotOk
  · exact ⟨State.toNat_pc_raised_advance s e, State.raised_mem s.advance e⟩

/-- Settles O9: every step answers, and by `raised_advance` the error entry of a 12-bit PC undoes the advance. -/
theorem errorsArePrecise : Obligations.ErrorsArePrecise := by
  intro s hpc
  obtain ⟨t, h⟩ := step_answers s
  obtain hok | ⟨e, -, ht⟩ := step_cases h
  · exact ⟨t, h, .inl hok⟩
  · exact ⟨t, h, .inr ⟨e, ht.trans (raised_advance hpc e)⟩⟩

end Sys2Proof.Machine
end

section
/-! Timer ticks and key events (spec/60_exceptions.md R260, R263, R264): what the transactions write to the timers and to the
key matrices. -/

namespace Sys2Proof.Machine

/-! ### Timers -/

theorem toNat_countDown (t : Byte) : (countDown t).toNat = t.toNat - 1 := by
  unfold countDown
  split
  next h => rw [h]; rfl
  next h =>
    have hpos : 1 ≤ t.toNat := Nat.pos_of_ne_zero fun h0 => h (BitVec.eq_of_toNat_eq h0)
    exact BitVec.toNat_sub_of_le hpos

/-! ### Keys -/

/-- A key matrix read after a write at any index; an index outside 0 to 15 writes nothing (R263, R264). -/
theorem getElem_setIfInBounds_key (m : Vector Bool 16) (k : Nat) (b : Bool) (j : Fin 16) :
    (m.setIfInBounds k b)[j] = if j.val = k then b else m[j] := by
  rw [Fin.getElem_fin, Vector.getElem_setIfInBounds]
  simp [eq_comm]

theorem State.keyDown_key (s : State) (k : Nat) : (s.keyDown k).key = s.key.setIfInBounds k true := by
  by_cases h : k < 16
  · rw [State.keyDown, if_pos h, State.setKey_key]
  · rw [State.keyDown, if_neg h, Vector.setIfInBounds_eq_of_size_le (Nat.le_of_not_lt h)]

/-- NEW is written on the key-down edge only (R263). -/
theorem State.keyDown_newKey (s : State) (k : Nat) :
    (s.keyDown k).newKey = if s.key.getD k false then s.newKey else s.newKey.setIfInBounds k true := by
  by_cases h : k < 16
  · rw [State.keyDown, if_pos h, State.setKey_newKey, State.setNewKey_newKey]
  · rw [State.keyDown, if_neg h, Vector.setIfInBounds_eq_of_size_le (Nat.le_of_not_lt h), ite_self]

theorem State.keyUp_key (s : State) (k : Nat) : (s.keyUp k).key = s.key.setIfInBounds k false := by
  by_cases h : k < 16
  · rw [State.keyUp, if_pos h, State.setKey_key]
  · rw [State.keyUp, if_neg h, Vector.setIfInBounds_eq_of_size_le (Nat.le_of_not_lt h)]

/-- A key-down event writes the two key matrices only (R263). -/
theorem State.keyDown_frame (s : State) (k : Nat) :
    s.keyDown k = { s with key := (s.keyDown k).key, newKey := (s.keyDown k).newKey } := by
  unfold State.keyDown
  split <;> rfl

/-- A key-up event writes KEY only (R264). -/
theorem State.keyUp_frame (s : State) (k : Nat) : s.keyUp k = { s with key := (s.keyUp k).key } := by
  unfold State.keyUp
  split <;> rfl

theorem State.getElem_key_keyDown (s : State) (k : Nat) (j : Fin 16) :
    (s.keyDown k).key[j] = (s.key[j] || decide (j.val = k)) := by
  rw [State.keyDown_key, getElem_setIfInBounds_key]
  by_cases h : j.val = k <;> simp [h]

theorem State.getElem_newKey_keyDown (s : State) (k : Nat) (j : Fin 16) :
    (s.keyDown k).newKey[j] = (s.newKey[j] || decide (j.val = k) && !s.key[j]) := by
  rw [State.keyDown_newKey]
  by_cases h : j.val = k
  · subst h
    have hkey : s.key.getD j.val false = s.key[j] := by simp [Vector.getD]
    rw [hkey]
    cases hdown : s.key[j]
    · rw [if_neg Bool.false_ne_true, getElem_setIfInBounds_key]
      simp
    · simp
  · rw [apply_ite (·[j]), getElem_setIfInBounds_key]
    simp [h]

theorem State.getElem_key_keyUp (s : State) (k : Nat) (j : Fin 16) :
    (s.keyUp k).key[j] = (s.key[j] && !decide (j.val = k)) := by
  rw [State.keyUp_key, getElem_setIfInBounds_key]
  by_cases h : j.val = k <;> simp [h]

/-! ### The obligations -/

/-- Settles O53: both events are reads of a key matrix after one write, on the edge for NEW (`State.getElem_newKey_keyDown`). -/
theorem keyEvents : Obligations.KeyEvents := by
  intro k ses
  constructor
  · exact ⟨_, rfl, State.getElem_key_keyDown _ k, State.getElem_newKey_keyDown _ k, State.keyDown_frame _ k⟩
  · exact ⟨_, rfl, State.getElem_key_keyUp _ k, State.keyUp_frame _ k⟩

/-- Settles O52: each timer is counted down as `toNat_countDown` says, and the two writes touch nothing else. -/
theorem tickCountsDown : Obligations.TickCountsDown := by
  intro ses
  exact ⟨ses.state.tickTimers, rfl, toNat_countDown ses.state.dt, toNat_countDown ses.state.st, rfl⟩

end Sys2Proof.Machine
end

section
/-! The decoder and the encoder (spec/30_encoding.md R80 to R96): a word is put together from its fields, and the words of a row
of the opcode map are the words of its instructions. -/

namespace Sys2Proof

/-! ### The fields of an encoded word -/

section
variable (op n : Nibble) (x y : Reg) (nn : Byte) (nnn : Addr12)

@[simp] theorem op_fields_wordNNN : (fields (wordNNN op nnn)).op = op := (fields_wordNNN op nnn).1
@[simp] theorem nnn_fields_wordNNN : (fields (wordNNN op nnn)).nnn = nnn := (fields_wordNNN op nnn).2
@[simp] theorem op_fields_wordXNN : (fields (wordXNN op x nn)).op = op := (fields_wordXNN op x nn).1
@[simp] theorem x_fields_wordXNN : (fields (wordXNN op x nn)).x = BitVec.ofFin x := (fields_wordXNN op x nn).2.1
@[simp] theorem nn_fields_wordXNN : (fields (wordXNN op x nn)).nn = nn := (fields_wordXNN op x nn).2.2
@[simp] theorem op_fields_wordXYN : (fields (wordXYN op x y n)).op = op := (fields_wordXYN op x y n).1
@[simp] theorem x_fields_wordXYN : (fields (wordXYN op x y n)).x = BitVec.ofFin x := (fields_wordXYN op x y n).2.1
@[simp] theorem y_fields_wordXYN : (fields (wordXYN op x y n)).y = BitVec.ofFin y := (fields_wordXYN op x y n).2.2.1
@[simp] theorem n_fields_wordXYN : (fields (wordXYN op x y n)).n = n := (fields_wordXYN op x y n).2.2.2

end

/-! ### A word from its fields -/

section
variable (w : Word)

@[simp] theorem wordNNN_fields : wordNNN (fields w).op (fields w).nnn = w := by
  apply BitVec.eq_of_getLsbD_eq
  intro i hi
  simp only [fields, BitVec.getLsbD_extractLsb', getLsbD_wordNNN]
  interval_cases i <;> simp

@[simp] theorem wordXNN_fields : wordXNN (fields w).op (regOf (fields w).x) (fields w).nn = w := by
  apply BitVec.eq_of_getLsbD_eq
  intro i hi
  simp only [fields, regOf, BitVec.ofFin_toFin, BitVec.getLsbD_extractLsb', getLsbD_wordXNN]
  interval_cases i <;> simp

@[simp] theorem wordXYN_fields :
    wordXYN (fields w).op (regOf (fields w).x) (regOf (fields w).y) (fields w).n = w := by
  apply BitVec.eq_of_getLsbD_eq
  intro i hi
  simp only [fields, regOf, BitVec.ofFin_toFin, BitVec.getLsbD_extractLsb', getLsbD_wordXYN]
  interval_cases i <;> simp

/-- The two bytes of a word, the byte at the lower address first, make up the word (R62). -/
theorem wordOfBytes_bytesOfWord : wordOfBytes (w.extractLsb' 8 8) (w.extractLsb' 0 8) = w := by
  apply BitVec.eq_of_toNat_eq
  rw [Machine.toNat_wordOfBytes, BitVec.extractLsb'_toNat, BitVec.extractLsb'_toNat, Nat.shiftRight_eq_div_pow]
  have := w.isLt
  omega

end

/-! ### Decoding -/

theorem decode_eq_ok_iff {w : Word} {i : Instr} : decode w = .ok i ↔ decodeFields (fields w) = some i := by
  unfold decode
  cases decodeFields (fields w) <;> simp

/-- Dispatch on the fields of an encoded word finds the instruction: the leading nibble picks the arm, and the second-level
opcode the arm within it (R82, R87). -/
theorem decodeFields_encode (i : Instr) : decodeFields (fields i.encode) = some i := by
  cases i
  case cls => decide
  case ret => decide
  case jp | call | ldI | jpV0 => simp [Instr.encode, decodeFields]
  case seImm | sneImm | ldImm | addImm | rnd => simp [Instr.encode, decodeFields]
  case seReg | sneReg | drw => simp [Instr.encode, decodeFields]
  case ldReg | orReg | andReg | xorReg | addReg | sub | shr | subn | shl =>
    simp [Instr.encode, decodeFields, decodeFamily8]
  case skp | sknp => simp [Instr.encode, decodeFields]
  case ldVxDT | ldVxK | ldDTVx | ldSTVx | addI | ldF | ldB | storeRegs | loadRegs =>
    simp [Instr.encode, decodeFields, decodeFamilyF]

theorem decode_encode (i : Instr) : decode i.encode = .ok i := decode_eq_ok_iff.mpr (decodeFields_encode i)

/-- The decoder on bytes reads the word's two bytes and leaves the others (R80). -/
theorem decodeBytes_bytesOfWord_append {w : Word} {i : Instr} (h : decode w = .ok i) (rest : List Byte) :
    decodeBytes (bytesOfWord w ++ rest) = .ok (i, rest) := by
  simp [bytesOfWord, decodeBytes, wordOfBytes_bytesOfWord, h]

/-- Settles O2: the dispatch finds the instruction of an encoded word (`decodeFields_encode`), and its bytes make up the word. -/
theorem decodeOfEncode : Obligations.DecodeOfEncode := by
  intro i rest
  exact ⟨decode_encode i, decodeBytes_bytesOfWord_append (decode_encode i) rest⟩

/-! ### Decoding is one to one -/

/-- A bit vector is the numeral that its value names: the form in which the decoder's arms know an opcode field. -/
theorem eq_ofNat_of_toNat_eq {k n : Nat} {b : BitVec k} (h : b.toNat = n) : b = BitVec.ofNat k n := by
  rw [← h, BitVec.ofNat_toNat, BitVec.setWidth_eq]

/-- Every arm of family 8 fixes the low nibble, so the instruction's word is the one decoded (R91). -/
theorem encode_of_decodeFamily8 {w : Word} {i : Instr} (hop : (fields w).op = 8)
    (h : decodeFamily8 (fields w) = some i) : i.encode = w := by
  have hw := wordXYN_fields w
  rw [hop] at hw
  unfold decodeFamily8 at h
  split at h
  case h_10 => cases h
  all_goals
    next hn =>
    rw [eq_ofNat_of_toNat_eq hn] at hw
    cases h
    exact hw

/-- Every arm of family F fixes the low byte (R93). -/
theorem encode_of_decodeFamilyF {w : Word} {i : Instr} (hop : (fields w).op = 0xF)
    (h : decodeFamilyF (fields w) = some i) : i.encode = w := by
  have hw := wordXNN_fields w
  rw [hop] at hw
  unfold decodeFamilyF at h
  split at h
  case h_10 => cases h
  all_goals
    next hnn =>
    rw [eq_ofNat_of_toNat_eq hnn] at hw
    cases h
    exact hw

/-- Each arm of the dispatch fixes the leading nibble, and the second-level opcode where there is one, and takes every other
field into the instruction, so no bit of the word is lost (R87). -/
theorem encode_of_decodeFields {w : Word} {i : Instr} (h : decodeFields (fields w) = some i) : i.encode = w := by
  have hNNN := wordNNN_fields w
  have hXNN := wordXNN_fields w
  have hXYN := wordXYN_fields w
  unfold decodeFields at h
  -- arm `h_k` is the one of leading nibble k - 1
  split at h
  case h_17 => cases h
  all_goals
    rename_i hop
    replace hop := eq_ofNat_of_toNat_eq hop
    rw [hop] at hNNN hXNN hXYN
  case h_1 =>
    split at h
    next hcls =>
      rw [hcls] at hNNN
      cases h
      exact hNNN
    next =>
      obtain ⟨hret, hi⟩ := Option.ite_none_right_eq_some.mp h
      rw [hret] at hNNN
      cases hi
      exact hNNN
  case h_6 | h_10 =>
    obtain ⟨hn, hi⟩ := Option.ite_none_right_eq_some.mp h
    rw [hn] at hXYN
    cases hi
    exact hXYN
  case h_9 => exact encode_of_decodeFamily8 hop h
  case h_15 =>
    split at h
    next hskp =>
      rw [hskp] at hXNN
      cases h
      exact hXNN
    next =>
      obtain ⟨hsknp, hi⟩ := Option.ite_none_right_eq_some.mp h
      rw [hsknp] at hXNN
      cases hi
      exact hXNN
  case h_16 => exact encode_of_decodeFamilyF hop h
  case h_2 | h_3 | h_11 | h_12 => cases h; exact hNNN
  case h_4 | h_5 | h_7 | h_8 | h_13 => cases h; exact hXNN
  case h_14 => cases h; exact hXYN

theorem encode_of_decode {w : Word} {i : Instr} (h : decode w = .ok i) : i.encode = w :=
  encode_of_decodeFields (decode_eq_ok_iff.mp h)

/-- Settles O3: the decoder takes every field it does not fix into the instruction (`encode_of_decodeFields`). -/
theorem encodeOfDecode : Obligations.EncodeOfDecode := by
  intro w i h
  exact encode_of_decode h

/-! ### The rows of the opcode map -/

/-- Two rows overlap when their patterns agree on the bits that both fix. -/
def OpcodeRow.overlaps (r r' : OpcodeRow) : Bool := r.pattern &&& r'.mask == r'.pattern &&& r.mask

/-- Rows that cover one word overlap: each pattern is that word on the row's own mask. -/
theorem OpcodeRow.overlaps_of_covers {r r' : OpcodeRow} {w : Word} (h : r.covers w = true) (h' : r'.covers w = true) :
    r.overlaps r' = true := by
  rw [OpcodeRow.covers, beq_iff_eq] at h h'
  rw [OpcodeRow.overlaps, beq_iff_eq, ← h, ← h', BitVec.and_assoc, BitVec.and_assoc, BitVec.and_comm r.mask]

/-- No two rows at different places of the map overlap (R95). -/
theorem opcodeRows_pairwise : opcodeRows.Pairwise fun r r' => r.overlaps r' = false := by decide

/-- Of two rows that cover one word neither stands before the other. -/
theorem not_lt_of_covers {w : Word} {j k : Nat} {r r' : OpcodeRow} (hj : opcodeRows[j]? = some r)
    (hk : opcodeRows[k]? = some r') (h : r.covers w = true) (h' : r'.covers w = true) : ¬j < k := by
  obtain ⟨jlt, rfl⟩ := List.getElem?_eq_some_iff.mp hj
  obtain ⟨klt, rfl⟩ := List.getElem?_eq_some_iff.mp hk
  intro hlt
  have hapart := List.pairwise_iff_getElem.mp opcodeRows_pairwise j k jlt klt hlt
  rw [OpcodeRow.overlaps_of_covers h h'] at hapart
  cases hapart

/-- Settles O4: rows that cover one word overlap, and no two different rows of the map do. -/
theorem opcodeRowsDisjoint : Obligations.OpcodeRowsDisjoint := by
  intro w j k r r' hj hk h h'
  exact Nat.le_antisymm (Nat.le_of_not_lt (not_lt_of_covers hk hj h' h)) (Nat.le_of_not_lt (not_lt_of_covers hj hk h h'))

/-! ### The words of a row -/

/-- Every word of the row is the word of an instruction of the row: the converse of `Laws.RowMatch`. -/
def OpcodeRow.WordsAreInstructions (r : OpcodeRow) : Prop :=
  ∀ w, r.covers w = true → ∃ i : Instr, opcodeRows[i.rowIndex]? = some r ∧ i.encode = w

section
variable {r : OpcodeRow} {op n : Nibble} {nn : Byte} {w : Word}

theorem op_of_covers (hmask : r.mask = 0xF000) (hpattern : r.pattern = wordNNN op 0) (hw : r.covers w = true) :
    (fields w).op = op := by
  rw [OpcodeRow.covers, beq_iff_eq, hmask, hpattern, ← wordNNN_fields w, wordNNN_and_F000] at hw
  simpa using congrArg (fun v => (fields v).op) hw

theorem op_nn_of_covers (hmask : r.mask = 0xF0FF) (hpattern : r.pattern = wordXNN op 0 nn) (hw : r.covers w = true) :
    (fields w).op = op ∧ (fields w).nn = nn := by
  rw [OpcodeRow.covers, beq_iff_eq, hmask, hpattern, ← wordXNN_fields w, wordXNN_and_F0FF] at hw
  exact ⟨by simpa using congrArg (fun v => (fields v).op) hw, by simpa using congrArg (fun v => (fields v).nn) hw⟩

theorem op_n_of_covers (hmask : r.mask = 0xF00F) (hpattern : r.pattern = wordXYN op 0 0 n) (hw : r.covers w = true) :
    (fields w).op = op ∧ (fields w).n = n := by
  rw [OpcodeRow.covers, beq_iff_eq, hmask, hpattern, ← wordXYN_fields w, wordXYN_and_F00F] at hw
  exact ⟨by simpa using congrArg (fun v => (fields v).op) hw, by simpa using congrArg (fun v => (fields v).n) hw⟩

/-- A row of one word (R89). -/
theorem wordsAreInstructions_of_fixed (i : Instr) (hmask : r.mask = 0xFFFF) (hrow : opcodeRows[i.rowIndex]? = some r)
    (hword : i.encode = r.pattern) : r.WordsAreInstructions := by
  intro w hw
  rw [OpcodeRow.covers, beq_iff_eq, hmask, show (0xFFFF : Word) = BitVec.allOnes 16 from rfl, BitVec.and_allOnes] at hw
  exact ⟨i, hrow, hword.trans hw.symm⟩

/-- A row that fixes the leading nibble, with an address for the rest (format F_NNN of R84). -/
theorem wordsAreInstructions_of_nnn (mk : Addr12 → Instr) (hmask : r.mask = 0xF000) (hpattern : r.pattern = wordNNN op 0)
    (hmk : ∀ nnn, opcodeRows[(mk nnn).rowIndex]? = some r ∧ (mk nnn).encode = wordNNN op nnn) :
    r.WordsAreInstructions := by
  intro w hw
  have hword := wordNNN_fields w
  rw [op_of_covers hmask hpattern hw] at hword
  exact ⟨_, (hmk _).1, (hmk _).2.trans hword⟩

/-- A row that fixes the leading nibble, with a register and a byte for the rest (format F_XNN). -/
theorem wordsAreInstructions_of_xnn (mk : Reg → Byte → Instr) (hmask : r.mask = 0xF000) (hpattern : r.pattern = wordNNN op 0)
    (hmk : ∀ x nn, opcodeRows[(mk x nn).rowIndex]? = some r ∧ (mk x nn).encode = wordXNN op x nn) :
    r.WordsAreInstructions := by
  intro w hw
  have hword := wordXNN_fields w
  rw [op_of_covers hmask hpattern hw] at hword
  exact ⟨_, (hmk _ _).1, (hmk _ _).2.trans hword⟩

/-- A row that fixes the leading nibble, with two registers and a count for the rest (format F_XYN). -/
theorem wordsAreInstructions_of_xyn (mk : Reg → Reg → Nibble → Instr) (hmask : r.mask = 0xF000)
    (hpattern : r.pattern = wordNNN op 0)
    (hmk : ∀ x y n, opcodeRows[(mk x y n).rowIndex]? = some r ∧ (mk x y n).encode = wordXYN op x y n) :
    r.WordsAreInstructions := by
  intro w hw
  have hword := wordXYN_fields w
  rw [op_of_covers hmask hpattern hw] at hword
  exact ⟨_, (hmk _ _ _).1, (hmk _ _ _).2.trans hword⟩

/-- A row that fixes the leading nibble and the low byte, with a register between them (format F_XS). -/
theorem wordsAreInstructions_of_x (mk : Reg → Instr) (hmask : r.mask = 0xF0FF) (hpattern : r.pattern = wordXNN op 0 nn)
    (hmk : ∀ x, opcodeRows[(mk x).rowIndex]? = some r ∧ (mk x).encode = wordXNN op x nn) : r.WordsAreInstructions := by
  intro w hw
  obtain ⟨hop, hnn⟩ := op_nn_of_covers hmask hpattern hw
  have hword := wordXNN_fields w
  rw [hop, hnn] at hword
  exact ⟨_, (hmk _).1, (hmk _).2.trans hword⟩

/-- A row that fixes the leading and the low nibble, with two registers between them (format F_XYS). -/
theorem wordsAreInstructions_of_xy (mk : Reg → Reg → Instr) (hmask : r.mask = 0xF00F)
    (hpattern : r.pattern = wordXYN op 0 0 n)
    (hmk : ∀ x y, opcodeRows[(mk x y).rowIndex]? = some r ∧ (mk x y).encode = wordXYN op x y n) :
    r.WordsAreInstructions := by
  intro w hw
  obtain ⟨hop, hn⟩ := op_n_of_covers hmask hpattern hw
  have hword := wordXYN_fields w
  rw [hop, hn] at hword
  exact ⟨_, (hmk _ _).1, (hmk _ _).2.trans hword⟩

end

theorem wordsAreInstructions_low : ∀ r ∈ opcodeRowsLow, r.WordsAreInstructions := by
  simp only [opcodeRowsLow, List.forall_mem_cons]
  refine ⟨?cls, ?ret, ?jp, ?call, ?seImm, ?sneImm, ?seReg, ?ldImm, ?addImm, List.forall_mem_nil _⟩
  case cls => exact wordsAreInstructions_of_fixed .cls rfl rfl rfl
  case ret => exact wordsAreInstructions_of_fixed .ret rfl rfl rfl
  case jp => exact wordsAreInstructions_of_nnn .jp rfl rfl fun _ => ⟨rfl, rfl⟩
  case call => exact wordsAreInstructions_of_nnn .call rfl rfl fun _ => ⟨rfl, rfl⟩
  case seImm => exact wordsAreInstructions_of_xnn .seImm rfl rfl fun _ _ => ⟨rfl, rfl⟩
  case sneImm => exact wordsAreInstructions_of_xnn .sneImm rfl rfl fun _ _ => ⟨rfl, rfl⟩
  case seReg => exact wordsAreInstructions_of_xy .seReg rfl rfl fun _ _ => ⟨rfl, rfl⟩
  case ldImm => exact wordsAreInstructions_of_xnn .ldImm rfl rfl fun _ _ => ⟨rfl, rfl⟩
  case addImm => exact wordsAreInstructions_of_xnn .addImm rfl rfl fun _ _ => ⟨rfl, rfl⟩

theorem wordsAreInstructions_alu : ∀ r ∈ opcodeRowsAlu, r.WordsAreInstructions := by
  simp only [opcodeRowsAlu, List.forall_mem_cons]
  refine ⟨?ldReg, ?orReg, ?andReg, ?xorReg, ?addReg, ?sub, ?shr, ?subn, ?shl, ?sneReg, List.forall_mem_nil _⟩
  case ldReg => exact wordsAreInstructions_of_xy .ldReg rfl rfl fun _ _ => ⟨rfl, rfl⟩
  case orReg => exact wordsAreInstructions_of_xy .orReg rfl rfl fun _ _ => ⟨rfl, rfl⟩
  case andReg => exact wordsAreInstructions_of_xy .andReg rfl rfl fun _ _ => ⟨rfl, rfl⟩
  case xorReg => exact wordsAreInstructions_of_xy .xorReg rfl rfl fun _ _ => ⟨rfl, rfl⟩
  case addReg => exact wordsAreInstructions_of_xy .addReg rfl rfl fun _ _ => ⟨rfl, rfl⟩
  case sub => exact wordsAreInstructions_of_xy .sub rfl rfl fun _ _ => ⟨rfl, rfl⟩
  case shr => exact wordsAreInstructions_of_xy .shr rfl rfl fun _ _ => ⟨rfl, rfl⟩
  case subn => exact wordsAreInstructions_of_xy .subn rfl rfl fun _ _ => ⟨rfl, rfl⟩
  case shl => exact wordsAreInstructions_of_xy .shl rfl rfl fun _ _ => ⟨rfl, rfl⟩
  case sneReg => exact wordsAreInstructions_of_xy .sneReg rfl rfl fun _ _ => ⟨rfl, rfl⟩

theorem wordsAreInstructions_mid : ∀ r ∈ opcodeRowsMid, r.WordsAreInstructions := by
  simp only [opcodeRowsMid, List.forall_mem_cons]
  refine ⟨?ldI, ?jpV0, ?rnd, ?drw, ?skp, ?sknp, List.forall_mem_nil _⟩
  case ldI => exact wordsAreInstructions_of_nnn .ldI rfl rfl fun _ => ⟨rfl, rfl⟩
  case jpV0 => exact wordsAreInstructions_of_nnn .jpV0 rfl rfl fun _ => ⟨rfl, rfl⟩
  case rnd => exact wordsAreInstructions_of_xnn .rnd rfl rfl fun _ _ => ⟨rfl, rfl⟩
  case drw => exact wordsAreInstructions_of_xyn .drw rfl rfl fun _ _ _ => ⟨rfl, rfl⟩
  case skp => exact wordsAreInstructions_of_x .skp rfl rfl fun _ => ⟨rfl, rfl⟩
  case sknp => exact wordsAreInstructions_of_x .sknp rfl rfl fun _ => ⟨rfl, rfl⟩

theorem wordsAreInstructions_f : ∀ r ∈ opcodeRowsF, r.WordsAreInstructions := by
  simp only [opcodeRowsF, List.forall_mem_cons]
  refine ⟨?ldVxDT, ?ldVxK, ?ldDTVx, ?ldSTVx, ?addI, ?ldF, ?ldB, ?storeRegs, ?loadRegs, List.forall_mem_nil _⟩
  case ldVxDT => exact wordsAreInstructions_of_x .ldVxDT rfl rfl fun _ => ⟨rfl, rfl⟩
  case ldVxK => exact wordsAreInstructions_of_x .ldVxK rfl rfl fun _ => ⟨rfl, rfl⟩
  case ldDTVx => exact wordsAreInstructions_of_x .ldDTVx rfl rfl fun _ => ⟨rfl, rfl⟩
  case ldSTVx => exact wordsAreInstructions_of_x .ldSTVx rfl rfl fun _ => ⟨rfl, rfl⟩
  case addI => exact wordsAreInstructions_of_x .addI rfl rfl fun _ => ⟨rfl, rfl⟩
  case ldF => exact wordsAreInstructions_of_x .ldF rfl rfl fun _ => ⟨rfl, rfl⟩
  case ldB => exact wordsAreInstructions_of_x .ldB rfl rfl fun _ => ⟨rfl, rfl⟩
  case storeRegs => exact wordsAreInstructions_of_x .storeRegs rfl rfl fun _ => ⟨rfl, rfl⟩
  case loadRegs => exact wordsAreInstructions_of_x .loadRegs rfl rfl fun _ => ⟨rfl, rfl⟩

theorem wordsAreInstructions {r : OpcodeRow} (hr : r ∈ opcodeRows) : r.WordsAreInstructions := by
  rw [opcodeRows, List.mem_append, List.mem_append, List.mem_append] at hr
  obtain ((hr | hr) | hr) | hr := hr
  · exact wordsAreInstructions_low r hr
  · exact wordsAreInstructions_alu r hr
  · exact wordsAreInstructions_mid r hr
  · exact wordsAreInstructions_f r hr

/-- The laws of `Laws.RowMatch`, for every instruction. -/
theorem rowMatch : ∀ i : Instr, Laws.RowMatch.Statement i
  | .cls => Laws.RowMatch.cls
  | .ret => Laws.RowMatch.ret
  | .jp nnn => Laws.RowMatch.jp nnn
  | .call nnn => Laws.RowMatch.call nnn
  | .seImm x nn => Laws.RowMatch.seImm x nn
  | .sneImm x nn => Laws.RowMatch.sneImm x nn
  | .seReg x y => Laws.RowMatch.seReg x y
  | .ldImm x nn => Laws.RowMatch.ldImm x nn
  | .addImm x nn => Laws.RowMatch.addImm x nn
  | .ldReg x y => Laws.RowMatch.ldReg x y
  | .orReg x y => Laws.RowMatch.orReg x y
  | .andReg x y => Laws.RowMatch.andReg x y
  | .xorReg x y => Laws.RowMatch.xorReg x y
  | .addReg x y => Laws.RowMatch.addReg x y
  | .sub x y => Laws.RowMatch.sub x y
  | .shr x y => Laws.RowMatch.shr x y
  | .subn x y => Laws.RowMatch.subn x y
  | .shl x y => Laws.RowMatch.shl x y
  | .sneReg x y => Laws.RowMatch.sneReg x y
  | .ldI nnn => Laws.RowMatch.ldI nnn
  | .jpV0 nnn => Laws.RowMatch.jpV0 nnn
  | .rnd x nn => Laws.RowMatch.rnd x nn
  | .drw x y n => Laws.RowMatch.drw x y n
  | .skp x => Laws.RowMatch.skp x
  | .sknp x => Laws.RowMatch.sknp x
  | .ldVxDT x => Laws.RowMatch.ldVxDT x
  | .ldVxK x => Laws.RowMatch.ldVxK x
  | .ldDTVx x => Laws.RowMatch.ldDTVx x
  | .ldSTVx x => Laws.RowMatch.ldSTVx x
  | .addI x => Laws.RowMatch.addI x
  | .ldF x => Laws.RowMatch.ldF x
  | .ldB x => Laws.RowMatch.ldB x
  | .storeRegs x => Laws.RowMatch.storeRegs x
  | .loadRegs x => Laws.RowMatch.loadRegs x

/-- Settles O5: a word of a row is the word of an instruction of that row, and a word that decodes is one of the row of its
instruction. -/
theorem decodeFollowsRows : Obligations.DecodeFollowsRows := by
  intro w
  constructor
  · intro r hr hw
    obtain ⟨i, hrow, rfl⟩ := wordsAreInstructions hr w hw
    exact ⟨i, decode_encode i, hrow⟩
  · intro hnone
    cases hd : decode w with
    | error e => rw [Machine.eq_unknownOpcode_of_decode_error hd]
    | ok i =>
      obtain ⟨r, hrow, hcovers⟩ := rowMatch i
      rw [encode_of_decode hd, hnone r (List.mem_of_getElem? hrow)] at hcovers
      cases hcovers

/-! ### Sample words and the quirk byte -/

/-- Settles O1: the decoder is run on each word. -/
theorem sampleWordsDecode : Obligations.SampleWordsDecode := by
  unfold Obligations.SampleWordsDecode
  decide

/-- Settles O6: all 32 records are packed and unpacked. -/
theorem quirksPackInFiveBits : Obligations.QuirksPackInFiveBits := by
  rintro ⟨shiftVy, jumpVx, logicClearsVf, indexIncrement, clip⟩
  revert shiftVy jumpVx logicClearsVf indexIncrement clip
  decide

end Sys2Proof
end

section
/-! The step on special words (spec/40_execution_cycle.md R110, R118, R119): the step through the decoder stated over the bytes
of memory, and the steps that change nothing but the recorded result. -/

namespace Sys2Proof.Machine

/-! ### The word and the advanced state as numbers -/

/-- The fetched word is the only one with its value. -/
theorem State.eq_fetchWord {s : State} {w : Word}
    (h : w.toNat = 256 * (s.mem.read s.pc).toNat + (s.mem.read (BitVec.ofNat 16 ((s.pc.toNat + 1) % 4096))).toNat) :
    w = s.fetchWord :=
  BitVec.eq_of_toNat_eq (h.trans (fetchIsBigEndian s).symm)

/-- The advance moves PC by 2 modulo 4096 (R110). -/
theorem State.advance_eq (s : State) : s.advance = { s with pc := BitVec.ofNat 16 ((s.pc.toNat + 2) % 4096) } := by
  have two : (2 : Word).toNat = 2 := rfl
  have hpc : mask12 (s.pc + 2) = BitVec.ofNat 16 ((s.pc.toNat + 2) % 4096) := by
    apply BitVec.eq_of_toNat_eq
    rw [toNat_mask12, BitVec.toNat_add, two, BitVec.toNat_ofNat]
    omega
  rw [State.advance, hpc, State.setPc]

/-- The one instruction a machine may lack is FX29, with no font (R93). -/
theorem eq_ldF_of_not_wellFormed {i : Instr} {font : Option Addr12} (h : i.wellFormed font = false) :
    (∃ x, i = .ldF x) ∧ font = none := by
  cases i
  case ldF x => exact ⟨⟨x, rfl⟩, by simpa [Instr.wellFormed] using h⟩
  all_goals cases h

/-- An instruction answers Ok or raises an error (R112, R252). -/
theorem exec_ok_or_raises (i : Instr) (s : State) :
    ∃ t, exec i s = .next t ∧ (t.result = .ok ∨ ∃ e, Raises s t e) := by
  obtain ⟨t, hexec, hok | ⟨-, -, rfl⟩ | ⟨-, -, -, rfl⟩ | ⟨-, -, -, rfl⟩⟩ := exec_cases i s
  · exact ⟨t, hexec, .inl hok⟩
  all_goals exact ⟨_, hexec, .inr ⟨_, raises_raised s _⟩⟩

/-! ### Steps that change only the recorded result -/

/-- A completed instruction that puts PC back to the fetch address leaves the state as it was (R114). -/
theorem completed_rewind_advance {s : State} (h : s.pc.toNat < 4096) :
    s.advance.rewind.completed = { s with result := .ok } := by
  rw [State.completed, State.rewind, State.advance_pc, mask12_rewind_advance h]
  rfl

/-- An error leaves its cause in place: PC, memory, SP and FONT_BASE are those of before the step (R252). -/
theorem State.FailsWith.of_result {s : State} {e : Fault} (h : s.FailsWith e) (r : Result) :
    State.FailsWith { s with result := r } e := by
  cases e <;> exact h

/-! ### The obligations -/

/-- Settles O8: the word is the fetched one and `a` is the advanced state, so each clause is the step through the decoder. -/
theorem stepRunsDecoded : Obligations.StepRunsDecoded := by
  rintro s a w hw ha
  rw [← State.advance_eq] at ha
  obtain rfl := ha
  obtain rfl := State.eq_fetchWord hw
  refine ⟨?runs, ?absent, ?noRow⟩
  case runs =>
    intro i hi
    rw [step_of_decode_ok hi]
    exact ⟨rfl, exec_ok_or_raises i s.advance⟩
  case absent =>
    intro i hi hwf
    obtain ⟨⟨x, rfl⟩, hnone⟩ := eq_ldF_of_not_wellFormed hwf
    exact ⟨_, (step_of_decode_ok hi).trans (exec_ldF_of_none x hnone), raises_raised _ _⟩
  case noRow =>
    intro e he
    exact ⟨_, step_of_decode_error he, raises_raised _ _⟩

/-- Settles O11: the error entry leaves the cause of the error in place, and its own result is the same error. -/
theorem errorRepeats : Obligations.ErrorRepeats := by
  intro s t e hpc h herr
  have hcause := (result_eq_err_iff_failsWith h e).mp herr
  obtain rfl := Host.Outcome.next.inj ((step_of_failsWith hcause).symm.trans h)
  rw [raised_advance hpc]
  exact (step_of_failsWith (hcause.of_result _)).trans (congrArg Host.Outcome.next (raised_advance hpc e))

/-- Settles O12: the word of two zero bytes matches no row. -/
theorem zeroWordIsUnknown : Obligations.ZeroWordIsUnknown := by
  intro s hpc hfirst hsecond
  have hword : s.fetchWord = 0 := by
    rw [State.fetchWord, hfirst, hsecond]
    decide
  have hreject : decode s.fetchWord = .error (.unknownOpcode 0) := by
    rw [hword]
    decide
  rw [step_of_decode_error hreject, raised_advance hpc]

/-- Settles O13: the jump overwrites the advanced PC with the address field, which is the old PC. -/
theorem selfJumpIsFixed : Obligations.SelfJumpIsFixed := by
  rintro s ⟨nnn, hjump, hself⟩
  have htarget : wordOfAddr nnn = s.pc := BitVec.eq_of_toNat_eq ((toNat_wordOfAddr nnn).trans hself)
  rw [step_of_decode_ok hjump, exec_jp, htarget]
  rfl

/-- Settles O47: with no new key FX0A is the rewind, which undoes the advance. -/
theorem waitingStepIsFixed : Obligations.WaitingStepIsFixed := by
  intro x s hpc hwait hnone
  have hkey : s.advance.lowestNewKey = none := (lowestNewKey_eq_none s.advance).mpr hnone
  rw [step_of_decode_ok hwait, exec_ldVxK_of_none x hkey, completed_rewind_advance hpc]

end Sys2Proof.Machine
end

section
/-! What each instruction may write (spec/10_state.md R20 to R36, R24): one frame for every instruction, from which the writers
of each register and each piece of state are read off. -/

namespace Sys2Proof.Machine

/-! ### The writes of an instruction -/

/-- The registers an instruction may write: its destinations, and VF where it writes a flag (R24). -/
def writtenRegs (q : Quirks) : Instr → List Reg
  | .ldImm x _ | .addImm x _ | .rnd x _ | .ldReg x _ | .ldVxDT x | .ldVxK x => [x]
  | .orReg x _ | .andReg x _ | .xorReg x _ => if q.logicClearsVf then [x, vF] else [x]
  | .addReg x _ | .sub x _ | .subn x _ | .shr x _ | .shl x _ => [x, vF]
  | .drw _ _ _ => [vF]
  | .loadRegs x => (List.finRange 16).filter (· ≤ x)
  | .cls | .ret | .jp _ | .call _ | .ldI _ | .jpV0 _ => []
  | .seImm _ _ | .sneImm _ _ | .seReg _ _ | .sneReg _ _ => []
  | .skp _ | .sknp _ | .ldDTVx _ | .ldSTVx _ | .addI _ | .ldF _ | .ldB _ | .storeRegs _ => []

/-- The pieces of state an instruction may write (R26, R30 to R34, R61). -/
def writtenParts (q : Quirks) : Instr → List Part
  | .ret | .call _ => [.stack]
  | .ldI _ | .addI _ | .ldF _ => [.index]
  | .ldDTVx _ => [.delay]
  | .ldSTVx _ => [.sound]
  | .cls | .drw _ _ _ => [.pixels]
  | .ldB _ => [.memory]
  | .storeRegs _ => if q.indexIncrement then [.index, .memory] else [.memory]
  | .loadRegs _ => if q.indexIncrement then [.index] else []
  | .rnd _ _ => [.draws]
  | .jp _ | .jpV0 _ | .seImm _ _ | .sneImm _ _ | .seReg _ _ | .sneReg _ _ => []
  | .ldImm _ _ | .addImm _ _ | .ldReg _ _ | .orReg _ _ | .andReg _ _ | .xorReg _ _ => []
  | .addReg _ _ | .sub _ _ | .subn _ _ | .shr _ _ | .shl _ _ => []
  | .skp _ | .sknp _ | .ldVxDT _ | .ldVxK _ => []

theorem hasDest_or_setsFlag_of_mem {q : Quirks} {i : Instr} {r : Reg} (h : r ∈ writtenRegs q i) :
    hasDest i r ∨ r = vF ∧ setsFlag q i := by
  cases i
  case ldImm | addImm | rnd | ldReg | ldVxDT | ldVxK => exact .inl (List.mem_singleton.mp h)
  case orReg x _ | andReg x _ | xorReg x _ =>
    cases hq : q.logicClearsVf
    · rw [writtenRegs, hq] at h
      exact .inl (List.mem_singleton.mp h)
    · rw [writtenRegs, hq] at h
      exact (List.mem_pair.mp h).imp_right (⟨·, hq⟩)
  case addReg | sub | subn | shr | shl => exact (List.mem_pair.mp h).imp_right (⟨·, trivial⟩)
  case drw => exact .inr ⟨List.mem_singleton.mp h, trivial⟩
  case loadRegs x =>
    have hle : r ≤ x := by simpa [writtenRegs] using h
    exact .inl hle
  all_goals cases h

/-- The instructions that write a piece of state, as the rules list them; block transfers write I under the quirk only
(R183). -/
def Writes (q : Quirks) (i : Instr) : Part → Prop
  | .index => (∃ nnn, i = .ldI nnn) ∨
      ∃ x, i = .addI x ∨ i = .ldF x ∨ (i = .storeRegs x ∨ i = .loadRegs x) ∧ q.indexIncrement = true
  | .stack => i = .ret ∨ ∃ nnn, i = .call nnn
  | .delay => ∃ x, i = .ldDTVx x
  | .sound => ∃ x, i = .ldSTVx x
  | .pixels => i = .cls ∨ ∃ x y n, i = .drw x y n
  | .memory => ∃ x, i = .storeRegs x ∨ i = .ldB x
  | .draws => ∃ x nn, i = .rnd x nn

theorem writes_of_mem {q : Quirks} {i : Instr} {p : Part} (h : p ∈ writtenParts q i) : Writes q i p := by
  cases i
  case ret | call | ldI | addI | ldF | ldDTVx | ldSTVx | cls | drw | ldB | rnd =>
    obtain rfl := List.mem_singleton.mp h
    simp [Writes]
  case storeRegs x =>
    cases hq : q.indexIncrement
    · rw [writtenParts, hq] at h
      obtain rfl := List.mem_singleton.mp h
      exact ⟨x, .inl rfl⟩
    · rw [writtenParts, hq] at h
      obtain rfl | rfl := List.mem_pair.mp h
      · exact .inr ⟨x, .inr (.inr ⟨.inl rfl, hq⟩)⟩
      · exact ⟨x, .inl rfl⟩
  case loadRegs x =>
    cases hq : q.indexIncrement
    · rw [writtenParts, hq] at h
      cases h
    · rw [writtenParts, hq] at h
      obtain rfl := List.mem_singleton.mp h
      exact .inr ⟨x, .inr (.inr ⟨.inr rfl, hq⟩)⟩
  all_goals cases h

/-! ### Frames of the shapes not met before -/

/-- A frame holds for more registers and more pieces of state. -/
theorem Frame.mono {s t : State} {regs regs' : List Reg} {parts parts' : List Part} (h : Frame s t regs parts)
    (hregs : regs ⊆ regs') (hparts : parts ⊆ parts') : Frame s t regs' parts' :=
  ⟨fun r hr => h.regs r fun hm => hr (hregs hm), fun p hp => h.parts p fun hm => hp (hparts hm), h.key, h.newKey, h.quirks,
    h.fontBase⟩

/-- The error entry changes PC and the result only (R252). -/
theorem frame_raised (s : State) (e : Fault) : Frame s (s.raised e) [] [] := by
  refine ⟨by simp, ?_, by simp, by simp, by simp, by simp⟩
  intro p _; cases p <;> simp [Part.Same]

/-- The draw of a random byte changes a register and the draw counter. -/
theorem frame_setV_setDraws (s : State) (x : Reg) (b : Byte) (n : Nat) :
    Frame s ((s.setV x b).setDraws n).completed [x] [.draws] := by
  refine ⟨fun r hr => ?_, ?_, by simp, by simp, by simp, by simp⟩
  · rw [State.getV_completed, State.getV_setDraws, State.getV_setV, if_neg (by simpa using hr)]
  · intro p hp; cases p <;> simp_all [Part.Same]

/-- A draw changes the pixels and VF. -/
theorem frame_setFb_setFlag (s : State) (fb : FrameBuffer) (f : Bool) :
    Frame s ((s.setFb fb).setFlag f).completed [vF] [.pixels] := by
  refine ⟨fun r hr => ?_, ?_, by simp, by simp, by simp, by simp⟩
  · rw [State.getV_completed, State.getV_setFlag, if_neg (by simpa using hr), State.getV_setFb]
  · intro p hp; cases p <;> simp_all [Part.Same]

/-- A logic operation writes VF under the quirk only (R156). -/
theorem frame_logicFlag (s : State) (x : Reg) (b : Byte) :
    Frame s (s.setV x b).logicFlag.completed (if s.quirks.logicClearsVf then [x, vF] else [x]) [] := by
  cases hq : s.quirks.logicClearsVf
  · rw [State.logicFlag, State.setV_quirks, hq]
    exact frame_setV s x b
  · exact frame_setV_logicFlag s x b

/-- Without the quirk a block transfer leaves I alone (R183). -/
theorem State.indexAfter_of_not {s : State} (h : s.quirks.indexIncrement = false) (x : Reg) : s.indexAfter x = s.i := by
  rw [State.indexAfter, h]
  rfl

/-- A block store changes memory, and I under the quirk (R183, R184). -/
theorem frame_storeRegs (s : State) (x : Reg) (m : Memory) :
    Frame s ((s.setMem m).setI (s.indexAfter x)).completed []
      (if s.quirks.indexIncrement then [.index, .memory] else [.memory]) := by
  cases hq : s.quirks.indexIncrement
  · rw [State.indexAfter_of_not hq]
    exact frame_setMem s m
  · exact frame_setMem_setI s m _

/-- A block load changes the registers it loads, and I under the quirk (R183, R186). -/
theorem frame_loadRegs (s : State) (x : Reg) :
    Frame s ((s.setRegs (loadBlock s.mem s.i s.v (x.val + 1))).setI (s.indexAfter x)).completed
      ((List.finRange 16).filter (· ≤ x)) (if s.quirks.indexIncrement then [.index] else []) := by
  refine ⟨fun r hr => ?_, fun p hp => ?_, rfl, rfl, rfl, rfl⟩
  · have hout : ¬r ≤ x := by simpa using hr
    rw [State.getV_completed, State.getV_setI, getV_setRegs_loadBlock, if_neg hout]
  · cases hq : s.quirks.indexIncrement
    · rw [State.indexAfter_of_not hq]
      cases p <;> simp [Part.Same]
    · cases p <;> simp_all [Part.Same]

/-! ### What the instructions with more than one outcome answer -/

section
variable {s t : State} {x : Reg} {nnn : Addr12}

theorem exec_ret_cases (h : exec .ret s = .next t) : t = s.raised .stackUnderflow ∨ t = s.popPc.completed := by
  obtain hempty | hpos := Nat.eq_zero_or_pos s.sp.val
  · exact .inl (Host.Outcome.next.inj (h.symm.trans (exec_ret_of_empty hempty)))
  · exact .inr (Host.Outcome.next.inj (h.symm.trans (exec_ret_of_pos hpos)))

theorem exec_call_cases (h : exec (.call nnn) s = .next t) :
    t = s.raised .stackOverflow ∨ t = (s.pushPc.setPc (wordOfAddr nnn)).completed := by
  obtain hfull | hlt : s.sp.val = 16 ∨ s.sp.val < 16 := by omega
  · exact .inl (Host.Outcome.next.inj (h.symm.trans (exec_call_of_full nnn hfull)))
  · exact .inr (Host.Outcome.next.inj (h.symm.trans (exec_call_of_lt nnn hlt)))

theorem exec_ldF_of_some {b : Addr12} (hfont : s.fontBase = some b) :
    exec (.ldF x) s = .next (s.setI (glyphAddr b (s.getV x))).completed := by
  rw [exec, execLdF, hfont]

theorem exec_ldF_cases (h : exec (.ldF x) s = .next t) :
    t = s.raised .unknownOpcode ∨ ∃ b, t = (s.setI (glyphAddr b (s.getV x))).completed := by
  cases hfont : s.fontBase with
  | none => exact .inl (Host.Outcome.next.inj (h.symm.trans (exec_ldF_of_none x hfont)))
  | some b => exact .inr ⟨b, Host.Outcome.next.inj (h.symm.trans (exec_ldF_of_some hfont))⟩

theorem exec_ldVxK_cases (h : exec (.ldVxK x) s = .next t) :
    t = s.rewind.completed ∨ ∃ k : Fin 16, t = (s.setV x (BitVec.ofNat 8 k.val)).completed := by
  cases hkey : s.lowestNewKey with
  | none => exact .inl (Host.Outcome.next.inj (h.symm.trans (exec_ldVxK_of_none x hkey)))
  | some k => exact .inr ⟨k, Host.Outcome.next.inj (h.symm.trans (exec_ldVxK_of_some x hkey))⟩

/-- A return leaves the stack entries alone, also when it raises (R31, R133). -/
theorem stack_of_exec_ret (h : exec .ret s = .next t) : t.stack = s.stack := by
  obtain rfl | rfl := exec_ret_cases h
  · exact State.raised_stack s _
  · exact State.popPc_stack s

end

/-! ### The frame of every instruction -/

/-- No instruction writes outside its own registers and pieces of state. -/
theorem frame_exec {i : Instr} {s t : State} (h : exec i s = .next t) :
    Frame s t (writtenRegs s.quirks i) (writtenParts s.quirks i) := by
  cases i
  case ret =>
    obtain rfl | rfl := exec_ret_cases h
    · exact (frame_raised s _).mono (List.nil_subset _) (List.nil_subset _)
    · exact frame_popPc s
  case call =>
    obtain rfl | rfl := exec_call_cases h
    · exact (frame_raised s _).mono (List.nil_subset _) (List.nil_subset _)
    · exact frame_pushPc_setPc s _
  case ldF =>
    obtain rfl | ⟨b, rfl⟩ := exec_ldF_cases h
    · exact (frame_raised s _).mono (List.nil_subset _) (List.nil_subset _)
    · exact frame_setI s _
  case ldVxK x =>
    obtain rfl | ⟨k, rfl⟩ := exec_ldVxK_cases h
    · exact (frame_rewind s).mono (List.nil_subset _) (List.nil_subset _)
    · exact frame_setV s x _
  all_goals obtain rfl := Host.Outcome.next.inj h
  case jp | jpV0 => exact frame_setPc s _
  case seImm | sneImm | seReg | sneReg | skp | sknp => exact frame_skipIf s _
  case ldImm x _ | addImm x _ | ldReg x _ | ldVxDT x => exact frame_setV s x _
  case orReg x _ | andReg x _ | xorReg x _ => exact frame_logicFlag s x _
  case addReg x _ | sub x _ | subn x _ | shr x _ | shl x _ => exact frame_setV_setFlag s x _ _
  case rnd x _ => exact frame_setV_setDraws s x _ _
  case cls => exact frame_setFb s _
  case drw => exact frame_setFb_setFlag s _ _
  case ldDTVx => exact frame_setDt s _
  case ldSTVx => exact frame_setSt s _
  case ldI | addI => exact frame_setI s _
  case ldB => exact frame_setMem s _
  case storeRegs x => exact frame_storeRegs s x _
  case loadRegs x => exact frame_loadRegs s x

/-- A piece of state that changed is one the instruction may write. -/
theorem mem_writtenParts {i : Instr} {s t : State} (h : exec i s = .next t) {p : Part} (hp : ¬p.Same s t) :
    p ∈ writtenParts s.quirks i := by
  by_contra hnot
  exact hp ((frame_exec h).parts p hnot)

/-! ### The obligations -/

/-- Settles O17: an instruction's frame keeps all four, and so does the error entry of a word that matches no row. -/
theorem stepLeavesKeysAndQuirks : Obligations.StepLeavesKeysAndQuirks := by
  intro s t h
  cases hd : decode s.fetchWord with
  | ok i =>
    have hframe := frame_exec ((step_of_decode_ok hd).symm.trans h)
    exact ⟨hframe.quirks, hframe.fontBase, hframe.key, hframe.newKey⟩
  | error e =>
    obtain rfl := Host.Outcome.next.inj ((step_of_decode_error hd).symm.trans h)
    have hframe := frame_raised s.advance .unknownOpcode
    exact ⟨hframe.quirks, hframe.fontBase, hframe.key, hframe.newKey⟩

/-- Settles O18: each piece that changed is in `writtenParts`, and of the two stack writers RET writes SP only. -/
theorem writersOfEachPart : Obligations.WritersOfEachPart := by
  intro i s t h
  have hwriter (p : Part) (hp : ¬p.Same s t) : Writes s.quirks i p := writes_of_mem (mem_writtenParts h hp)
  refine ⟨hwriter .index, ?sp, ?stack, hwriter .delay, hwriter .sound, hwriter .pixels, ?memory, hwriter .draws⟩
  case sp =>
    intro hsp
    exact hwriter .stack fun hsame => hsp hsame.1
  case stack =>
    intro hstack
    obtain rfl | hcall := hwriter .stack fun hsame => hstack hsame.2
    · exact absurd (stack_of_exec_ret h) hstack
    · exact hcall
  case memory =>
    rintro ⟨a, ha⟩
    exact hwriter .memory fun hsame => ha (hsame a)

/-- Settles O19: a register that changed is in `writtenRegs`. -/
theorem writersOfRegisters : Obligations.WritersOfRegisters := by
  intro i s t r h hr
  apply hasDest_or_setsFlag_of_mem
  by_contra hnot
  exact hr ((frame_exec h).regs r hnot)

end Sys2Proof.Machine
end

section
/-! The invariant (spec/10_state.md R26, R28, R31, R37): each operation of the state keeps it, so every instruction, every step
and every transaction does; construction and reset meet it. -/

namespace Sys2Proof.Machine

/-! ### The operations keep the invariant -/

/-- The invariant speaks of memory, PC, I and the stack only. -/
theorem State.Inv.congr {s t : State} (h : s.Inv) (hmem : t.mem = s.mem) (hpc : t.pc = s.pc) (hi : t.i = s.i)
    (hstack : t.stack = s.stack) : t.Inv :=
  ⟨hmem ▸ h.mem, hpc ▸ h.pc, hi ▸ h.i, hstack ▸ h.stack⟩

section
variable {s : State} (h : s.Inv)
include h

theorem State.Inv.completed : s.completed.Inv := h.congr rfl rfl rfl rfl

theorem State.Inv.setV (x : Reg) (b : Byte) : (s.setV x b).Inv := h.congr rfl rfl rfl rfl

theorem State.Inv.setRegs (v : Vector Byte 16) : (s.setRegs v).Inv := h.congr rfl rfl rfl rfl

theorem State.Inv.logicFlag : s.logicFlag.Inv := h.congr (by simp) (by simp) (by simp) (by simp)

theorem State.Inv.setPc {a : Word} (ha : a.toNat < 4096) : (s.setPc a).Inv := ⟨h.mem, ha, h.i, h.stack⟩

theorem State.Inv.setI {a : Word} (ha : a.toNat < 4096) : (s.setI a).Inv := ⟨h.mem, h.pc, ha, h.stack⟩

theorem State.Inv.setMem {m : Memory} (hm : m.wf) : (s.setMem m).Inv := ⟨hm, h.pc, h.i, h.stack⟩

theorem State.Inv.advance : s.advance.Inv := h.setPc (mask12_lt _)

theorem State.Inv.rewind : s.rewind.Inv := h.setPc (mask12_lt _)

theorem State.Inv.raised (e : Fault) : (s.raised e).Inv := h.rewind.congr rfl rfl rfl rfl

theorem State.Inv.skipIf (c : Bool) : (s.skipIf c).Inv := by
  cases c
  · exact h
  · exact h.setPc (mask12_lt _)

/-- A push puts PC, a 12-bit value, on the stack (R132). -/
theorem State.Inv.pushPc : s.pushPc.Inv := by
  refine ⟨h.mem, h.pc, h.i, fun j => ?_⟩
  rw [State.stack_pushPc]
  split
  · exact h.pc
  · exact h.stack j

theorem State.Inv.popPc : s.popPc.Inv := ⟨h.mem, mask12_lt _, h.i, h.stack⟩

end

/-! ### Instructions and steps -/

/-- Every instruction keeps the invariant: what it writes to PC and I is masked to 12 bits or an address field, what it
pushes is PC, and what it writes to memory goes through the canonical write. -/
theorem inv_exec {i : Instr} {s t : State} (hs : s.Inv) (h : exec i s = .next t) : t.Inv := by
  cases i
  case ret =>
    obtain rfl | rfl := exec_ret_cases h
    · exact hs.raised _
    · exact hs.popPc.completed
  case call nnn =>
    obtain rfl | rfl := exec_call_cases h
    · exact hs.raised _
    · exact (hs.pushPc.setPc (wordOfAddr_lt nnn)).completed
  case ldF =>
    obtain rfl | ⟨b, rfl⟩ := exec_ldF_cases h
    · exact hs.raised _
    · exact (hs.setI (mask12_lt _)).completed
  case ldVxK x =>
    obtain rfl | ⟨k, rfl⟩ := exec_ldVxK_cases h
    · exact hs.rewind.completed
    · exact (hs.setV x _).completed
  all_goals obtain rfl := Host.Outcome.next.inj h
  case jp nnn => exact (hs.setPc (wordOfAddr_lt nnn)).completed
  case jpV0 => exact (hs.setPc (mask12_lt _)).completed
  case seImm | sneImm | seReg | sneReg | skp | sknp => exact (hs.skipIf _).completed
  case ldImm x _ | addImm x _ | ldReg x _ | ldVxDT x => exact (hs.setV x _).completed
  case orReg x _ | andReg x _ | xorReg x _ => exact (hs.setV x _).logicFlag.completed
  case addReg x _ | sub x _ | subn x _ | shr x _ | shl x _ => exact ((hs.setV x _).setV vF _).completed
  case rnd | cls | drw | ldDTVx | ldSTVx => exact hs.congr rfl rfl rfl rfl
  case ldI nnn => exact (hs.setI (wordOfAddr_lt nnn)).completed
  case addI => exact (hs.setI (mask12_lt _)).completed
  case ldB => exact (hs.setMem (Memory.write_wf (Memory.write_wf (Memory.write_wf hs.mem _ _) _ _) _ _)).completed
  case storeRegs x => exact ((hs.setMem (storeBlock_wf s.v s.i hs.mem _)).setI (indexAfter_lt hs.i x)).completed
  case loadRegs x => exact ((hs.setRegs _).setI (indexAfter_lt hs.i x)).completed

theorem inv_step {s t : State} (hs : s.Inv) (h : step s = .next t) : t.Inv := by
  cases hd : decode s.fetchWord with
  | ok i => exact inv_exec hs.advance ((step_of_decode_ok hd).symm.trans h)
  | error e =>
    obtain rfl := Host.Outcome.next.inj ((step_of_decode_error hd).symm.trans h)
    exact hs.advance.raised _

/-- Settles O14: a step is an instruction on the advanced state, or the error entry (`inv_step`). -/
theorem stepKeepsInv : Obligations.StepKeepsInv := by
  intro s t hs h
  exact inv_step hs h

/-! ### Construction -/

/-- Loading zero bytes into empty memory lists nothing (R40). -/
theorem Memory.load_nil_replicate_zero (n base : Nat) : Memory.load [] base (List.replicate n 0) = [] := by
  induction n generalizing base with
  | zero => rfl
  | succ n ih => exact ih (base + 1)

/-- Settles O21: an all-zero image leaves memory empty, and every other field is the same value. -/
theorem resetIsConstruction : Obligations.ResetIsConstruction := by
  have hmem : Memory.load [] 0 (Vector.replicate 512 (0 : Byte)).toList = [] := by
    rw [Vector.toList_replicate, Memory.load_nil_replicate_zero]
  unfold Obligations.ResetIsConstruction
  rw [State.construct, hmem]
  rfl

theorem inv_construct (q : Quirks) (font : Option Addr12) (low : Vector Byte 512) : (State.construct q font low).Inv := by
  refine ⟨?mem, ?pc, ?i, ?stack⟩
  case pc => rw [State.construct_pc]; decide
  case i => rw [State.construct_i]; decide
  case mem =>
    rw [State.construct_mem]
    exact Memory.load_wf low.toList Memory.wf_nil (by simp)
  case stack =>
    intro j
    simp

/-- Settles O16: reset is a construction (`resetIsConstruction`). -/
theorem resetHasInv : Obligations.ResetHasInv := by
  constructor
  · rw [resetIsConstruction]
    exact inv_construct _ _ _
  · exact inv_construct

end Sys2Proof.Machine
end

section
/-! Transactions and schedules (spec/60_exceptions.md R265, R270, R276, R280): what each transaction answers, what it keeps, and
the mark that a session has stepped. -/

namespace Sys2Proof.Machine

/-! ### What the transactions answer -/

section
variable (ses : Session)

theorem transact_step {t : State} (h : step ses.state = .next t) :
    transact .step ses = .next (⟨t, true⟩, .returned t.result) := by
  rw [transact, h]

theorem transact_loadRom_of_fits {bytes : List Byte} (hfirst : ses.stepped = false) (hfits : bytes.length ≤ 0xE00) :
    transact (.loadRom bytes) ses =
      .next ({ ses with state := ses.state.setMem (ses.state.mem.load 0x200 bytes) }, .loaded) := by
  rw [transact, State.loadRom, if_pos hfits, hfirst]

/-- A load is rejected when the session has stepped and when the payload is too long (R270). -/
theorem transact_loadRom_of_rejected {bytes : List Byte} (h : ses.stepped = true ∨ bytes.length > 0xE00) :
    transact (.loadRom bytes) ses = .next (ses, .rejected) := by
  obtain hstepped | hlong := h
  · rw [transact, hstepped]
  · rw [transact, State.loadRom, if_neg (Nat.not_le_of_gt hlong)]
    cases ses.stepped <;> rfl

end

/-- A load is accepted or rejected (R270). -/
theorem fits_or_rejected (bytes : List Byte) (ses : Session) :
    (ses.stepped = false ∧ bytes.length ≤ 0xE00) ∨ (ses.stepped = true ∨ bytes.length > 0xE00) := by
  cases ses.stepped
  · exact (Nat.lt_or_ge 0xE00 bytes.length).symm.imp (⟨rfl, ·⟩) .inr
  · exact .inr (.inl rfl)

/-- Settles O51: a step answers (`step_answers`), and every other transaction is a plain update of the session. -/
theorem transactionsAnswer : Obligations.TransactionsAnswer := by
  intro tx ses
  cases tx
  case step =>
    obtain ⟨t, h⟩ := step_answers ses.state
    exact ⟨_, _, transact_step ses h⟩
  all_goals exact ⟨_, _, rfl⟩

/-- Settles O56: the step answers (`step_answers`) and the transaction passes the answer on. -/
theorem stepTransaction : Obligations.StepTransaction := by
  intro ses
  obtain ⟨t, h⟩ := step_answers ses.state
  exact ⟨t, h, transact_step ses h⟩

/-- Settles O54: the clear writes 16 zeros to NEW, and the read returns the field FB. -/
theorem clearAndRead : Obligations.ClearAndRead := by
  intro ses
  refine ⟨⟨ses.state.clearNewlyPressed, rfl, ?_, rfl⟩, rfl⟩
  intro k
  rw [State.clearNewlyPressed, State.setNewKey_newKey, Fin.getElem_fin, Vector.getElem_replicate]

/-! ### Loading a ROM -/

/-- A byte after a load at 0x200: the payload inside the loaded range, the old byte outside it (R270). -/
theorem Memory.read_load_rom {m : Memory} (hm : m.wf) {bytes : List Byte} (hfits : bytes.length ≤ 0xE00) {a : Word}
    (ha : a.toNat < 4096) :
    (m.load 0x200 bytes).read a =
      if 0x200 ≤ a.toNat ∧ a.toNat < 0x200 + bytes.length then bytes.getD (a.toNat - 0x200) 0 else m.read a := by
  rw [Memory.read, Memory.read, mask12_of_lt ha, Memory.readCell_load bytes a.toNat hm (by omega)]

/-- Settles O55: an accepted load fills memory only, as `Memory.read_load_rom` says; every other load is rejected. -/
theorem romLoad : Obligations.RomLoad := by
  intro bytes ses hm
  constructor
  · intro hfirst hfits
    exact ⟨_, transact_loadRom_of_fits ses hfirst hfits, fun a ha => Memory.read_load_rom hm hfits ha, rfl⟩
  · exact transact_loadRom_of_rejected ses

/-! ### The invariant -/

theorem State.Inv.tickTimers {s : State} (h : s.Inv) : s.tickTimers.Inv := h.congr rfl rfl rfl rfl

theorem State.Inv.clearNewlyPressed {s : State} (h : s.Inv) : s.clearNewlyPressed.Inv := h.congr rfl rfl rfl rfl

theorem State.Inv.keyDown {s : State} (h : s.Inv) (k : Nat) : (s.keyDown k).Inv := by
  rw [State.keyDown_frame]
  exact h.congr rfl rfl rfl rfl

theorem State.Inv.keyUp {s : State} (h : s.Inv) (k : Nat) : (s.keyUp k).Inv := by
  rw [State.keyUp_frame]
  exact h.congr rfl rfl rfl rfl

/-- Settles O15: a step keeps the invariant by `inv_step`, an accepted load ends at or below 4096, and the other transactions
write none of the state it speaks of. -/
theorem transactionsKeepInv : Obligations.TransactionsKeepInv := by
  intro tx ses ses' reply hinv h
  cases tx
  case loadRom bytes =>
    obtain ⟨hfirst, hfits⟩ | hrejected := fits_or_rejected bytes ses
    · cases (transact_loadRom_of_fits ses hfirst hfits).symm.trans h
      exact hinv.setMem (Memory.load_wf bytes hinv.mem (by omega))
    · cases (transact_loadRom_of_rejected ses hrejected).symm.trans h
      exact hinv
  case step =>
    obtain ⟨t, hstep⟩ := step_answers ses.state
    cases (transact_step ses hstep).symm.trans h
    exact inv_step hinv hstep
  all_goals cases h
  case tickTimers => exact hinv.tickTimers
  case keyDown k => exact hinv.keyDown k
  case keyUp k => exact hinv.keyUp k
  case clearNewlyPressed => exact hinv.clearNewlyPressed
  case readFrameBuffer => exact hinv

/-! ### The mark that a session has stepped -/

/-- Settles O57: a step sets the mark, and every other transaction keeps it. -/
theorem steppedIsRemembered : Obligations.SteppedIsRemembered := by
  intro tx ses ses' reply h
  cases tx
  case loadRom bytes =>
    obtain ⟨hfirst, hfits⟩ | hrejected := fits_or_rejected bytes ses
    · cases (transact_loadRom_of_fits ses hfirst hfits).symm.trans h
      simp
    · cases (transact_loadRom_of_rejected ses hrejected).symm.trans h
      simp
  case step =>
    obtain ⟨t, hstep⟩ := step_answers ses.state
    cases (transact_step ses hstep).symm.trans h
    simp
  all_goals
    cases h
    simp

/-- A schedule that is answered begins with an answered transaction, and its rest is answered from there. -/
theorem runTransactions_cons {tx : Transaction} {txs : List Transaction} {ses ses' : Session} {replies : List Reply}
    (h : runTransactions (tx :: txs) ses = .next (ses', replies)) :
    ∃ mid reply rest, transact tx ses = .next (mid, reply) ∧ runTransactions txs mid = .next (ses', rest) := by
  obtain ⟨mid, reply, htx⟩ := transactionsAnswer tx ses
  rw [runTransactions, htx] at h
  dsimp only at h
  cases hrest : runTransactions txs mid with
  | next out =>
    rw [hrest] at h
    cases h
    exact ⟨mid, reply, out.2, htx, hrest⟩
  | fault e => rw [hrest] at h; cases h
  | refused r => rw [hrest] at h; cases h

/-- A session is marked after a schedule when it was before it or when the schedule contains a step. -/
theorem stepped_of_runTransactions {txs : List Transaction} {ses ses' : Session} {replies : List Reply}
    (h : runTransactions txs ses = .next (ses', replies)) (hmark : ses.stepped = true ∨ .step ∈ txs) :
    ses'.stepped = true := by
  induction txs generalizing ses replies with
  | nil =>
    cases h
    exact hmark.resolve_right List.not_mem_nil
  | cons tx txs ih =>
    obtain ⟨mid, reply, rest, htx, hrest⟩ := runTransactions_cons h
    have hmid := steppedIsRemembered tx ses mid reply htx
    apply ih hrest
    rw [hmid]
    obtain hses | hmem := hmark
    · exact .inl (.inl hses)
    · obtain rfl | hmem := List.mem_cons.mp hmem
      · exact .inl (.inr rfl)
      · exact .inr hmem

/-- Settles O58: the schedule leaves the session marked, and a marked session rejects a load. -/
theorem lateLoadIsRejected : Obligations.LateLoadIsRejected := by
  intro txs ses ses' replies bytes hstep h
  exact transact_loadRom_of_rejected ses' (.inl (stepped_of_runTransactions h (.inr hstep)))

end Sys2Proof.Machine
end

section
/-! Single instructions of several files of the spec: calls and returns, subtraction, block transfers that meet a load or a
fetch, FX29, random bytes, jumps with an offset and key skips. -/

namespace Sys2Proof.Machine

/-! ### Call and return (spec/41_control_flow.md) -/

/-- Settles O25: the CALL puts PC in the entry its old SP names (`State.stack_pushPc`), and the RET takes PC from there
(`State.pc_popPc`). -/
theorem callThenReturn : Obligations.CallThenReturn := by
  intro nnn s hlt hpc
  refine ⟨_, exec_call_of_lt nnn hlt, fun t' hsp hentry => ?_⟩
  obtain ⟨j, hj⟩ : ∃ j : Fin 16, j.val = s.sp.val := ⟨⟨_, hlt⟩, rfl⟩
  have hdepth : t'.sp.val = j.val + 1 := by
    rw [hsp, hj]
    exact State.val_sp_pushPc hlt
  have hpushed : t'.stack[j] = s.pc := by
    rw [hentry j hj, State.completed_stack, State.setPc_stack, State.stack_pushPc, if_pos hj]
  refine ⟨_, exec_ret_of_pos (by omega), ?_, Fin.ext ((State.val_sp_popPc hdepth).trans hj), State.completed_result _⟩
  rw [State.completed_pc, State.pc_popPc hdepth, hpushed, mask12_of_lt hpc]

/-! ### Subtraction (spec/42_register_alu.md) -/

section
variable (x y : Reg) (s : State)

theorem exec_sub :
    exec (.sub x y) s =
      .next ((s.setV x (s.getV x - s.getV y)).setFlag (notBorrow (s.getV x) (s.getV y))).completed := rfl

theorem exec_subn :
    exec (.subn x y) s =
      .next ((s.setV x (s.getV y - s.getV x)).setFlag (notBorrow (s.getV y) (s.getV x))).completed := rfl

end

theorem toNat_flagByte_notBorrow (a b : Byte) :
    (flagByte (notBorrow a b)).toNat = if a.toNat ≥ b.toNat then 1 else 0 := by
  simp [toNat_flagByte]

/-- The difference modulo 256 (R150). -/
theorem toNat_sub_byte (a b : Byte) : (a - b).toNat = (a.toNat + 256 - b.toNat) % 256 := by
  have hb := b.isLt
  rw [BitVec.toNat_sub]
  omega

/-- Settles O33: SUB and SUBN are one shape with the operands exchanged. -/
theorem subtractRegisters : Obligations.SubtractRegisters := by
  intro x y s
  exact ⟨exec_writes_then_flag (exec_sub x y s) (toNat_sub_byte _ _) (toNat_flagByte_notBorrow _ _),
    exec_writes_then_flag (exec_subn x y s) (toNat_sub_byte _ _) (toNat_flagByte_notBorrow _ _)⟩

/-! ### Block transfers (spec/43_memory_index.md) -/

theorem toNat_blockAddr (base : Word) (k : Nat) : (blockAddr base k).toNat % 4096 = (base.toNat + k) % 4096 := by
  rw [blockAddr, BitVec.toNat_add, BitVec.toNat_ofNat]
  omega

/-- Addresses less than a whole memory apart are different modulo 4096. -/
theorem mask12_blockAddr_ne {base : Word} {j k : Nat} (hlt : j < k) (hk : k < 4096) :
    mask12 (blockAddr base k) ≠ mask12 (blockAddr base j) := by
  intro h
  have hmod := congrArg BitVec.toNat h
  rw [toNat_mask12, toNat_mask12, toNat_blockAddr, toNat_blockAddr] at hmod
  omega

/-- The bytes after those of a transfer of V0..Vx are not stored to (R182). -/
theorem read_storeBlock_after (s : State) (x k : Reg) :
    (storeBlock s.v s.i s.mem (x.val + 1)).read (blockAddr s.i (x.val + 1 + k.val)) =
      s.mem.read (blockAddr s.i (x.val + 1 + k.val)) :=
  read_storeBlock_other s fun _ hj => mask12_blockAddr_ne (Nat.lt_add_right _ (Nat.lt_succ_of_le hj)) (by omega)

/-- An address counted from the index a transfer of V0..Vx leaves under the quirk (R183). -/
theorem read_blockAddr_indexAfter {s : State} (h : s.quirks.indexIncrement = true) (m : Memory) (x : Reg) (k : Nat) :
    m.read (blockAddr (s.indexAfter x) k) = m.read (blockAddr s.i (x.val + 1 + k)) := by
  apply Memory.read_congr
  rw [toNat_blockAddr, toNat_blockAddr, toNat_indexAfter, if_pos h]
  omega

/-- Settles O38: without the quirk the load reads the stored bytes, with it the bytes after them, which no store reached. -/
theorem storeThenLoad : Obligations.StoreThenLoad := by
  intro x s hm
  refine ⟨_, exec_storeRegs x s, fun t' hi hmem _ => ⟨_, exec_loadRegs x t', fun k hk => ?_⟩⟩
  rw [State.completed_i, State.setI_i] at hi
  rw [State.completed_mem, State.setI_mem, State.setMem_mem] at hmem
  rw [State.getV_completed, State.getV_setI, getV_setRegs_loadBlock, if_pos hk, hi, hmem]
  cases hq : s.quirks.indexIncrement
  · rw [State.indexAfter_of_not hq, read_storeBlock_reg s hm hk, if_neg Bool.false_ne_true]
  · rw [read_blockAddr_indexAfter hq, read_storeBlock_after, if_pos rfl]

/-- Settles O39: the two bytes a fetch at the old I reads are the stored V0 and V1. -/
theorem storeIsFetched : Obligations.StoreIsFetched := by
  intro x s hm hx
  refine ⟨_, exec_storeRegs x s, fun t' hmem hpc => ?_⟩
  rw [State.completed_mem, State.setI_mem, State.setMem_mem] at hmem
  have hfirst : t'.mem.read s.i = s.getV 0 := by
    have h := read_storeBlock_reg s hm (Fin.zero_le x)
    rwa [Fin.val_zero, blockAddr_zero, ← hmem] at h
  have hsecond : t'.mem.read (s.i + 1) = s.getV 1 := by
    have h := read_storeBlock_reg s hm hx
    rwa [← hmem] at h
  rw [State.fetchWord, toNat_wordOfBytes, hpc, hfirst, hsecond]

/-! ### The glyph address -/

/-- The glyph of the low nibble of a byte, five bytes a glyph, counted from FONT_BASE (R188). -/
theorem toNat_glyphAddr (b : Addr12) (v : Byte) : (glyphAddr b v).toNat = (b.toNat + 5 * (v.toNat % 16)) % 4096 := by
  have five : (5 : Word).toNat = 5 := rfl
  have nibble : (v &&& 0x0F).toNat = v.toNat % 16 := Nat.and_two_pow_sub_one_eq_mod v.toNat 4
  rw [glyphAddr, toNat_mask12, BitVec.toNat_add, BitVec.toNat_mul, five, toNat_wordOfAddr, toNat_wordOfByte, nibble]
  omega

/-- Settles O40: a write of I where there is a font, the error entry where there is none. -/
theorem glyphAddress : Obligations.GlyphAddress := by
  intro x s
  constructor
  · intro b hfont
    exact exec_writes_index (exec_ldF_of_some hfont) (toNat_glyphAddr b _)
  · intro hnone
    exact ⟨_, exec_ldF_of_none x hnone, raises_raised s _⟩

/-! ### Random bytes and jumps with an offset (spec/44_derived.md) -/

theorem exec_rnd (x : Reg) (nn : Byte) (s : State) :
    exec (.rnd x nn) s = .next ((s.setV x (Config.randomByte s.draws &&& nn)).setDraws (s.draws + 1)).completed := rfl

theorem exec_jpV0 (nnn : Addr12) (s : State) :
    exec (.jpV0 nnn) s = .next (s.setPc (mask12 (wordOfAddr nnn + wordOfByte (s.getV (s.jumpReg nnn))))).completed := rfl

/-- Settles O41: a register write of the masked draw, and one more draw counted. -/
theorem randomMasked : Obligations.RandomMasked := by
  intro x nn s
  refine ⟨_, exec_rnd x nn s, ?_, rfl, rfl, State.completed_result _, frame_setV_setDraws s x _ _⟩
  rw [State.getV_completed, State.getV_setDraws, State.getV_setV, if_pos rfl]

/-- Settles O42: the target is the masked sum, with the offset register `jumpReg_eq` names. -/
theorem jumpWithOffset : Obligations.JumpWithOffset := by
  intro nnn s
  refine ⟨_, exec_jpV0 nnn s, ?_, State.completed_result _, frame_setPc s _⟩
  rw [State.completed_pc, State.setPc_pc, toNat_mask12_add_wordOfByte, toNat_wordOfAddr, jumpReg_eq]

/-! ### Key skips (spec/45_timer_input.md) -/

/-- A skip that is taken (R130). -/
theorem exec_skips {i : Instr} {s : State} {c : Bool} (hexec : exec i s = .next (s.skipIf c).completed) (hc : c = true) :
    ∃ t, exec i s = .next t ∧ t.pc.toNat = (s.pc.toNat + 2) % 4096 ∧ t.result = .ok ∧ Frame s t [] [] := by
  refine ⟨_, hexec, ?_, State.completed_result _, frame_skipIf s c⟩
  rw [State.completed_pc, State.toNat_pc_skipIf, if_pos hc]

/-- A skip that is not taken. -/
theorem exec_does_not_skip {i : Instr} {s : State} {c : Bool} (hexec : exec i s = .next (s.skipIf c).completed)
    (hc : c = false) : ∃ t, exec i s = .next t ∧ t.pc = s.pc ∧ t.result = .ok ∧ Frame s t [] [] := by
  refine ⟨_, hexec, ?_, State.completed_result _, frame_skipIf s c⟩
  rw [hc]
  rfl

/-- Settles O45: SKP skips on the key test and SKNP on its negation, and `keyDownAt_iff` says when the test holds. -/
theorem keySkips : Obligations.KeySkips := by
  intro x s
  have skp : exec (.skp x) s = .next (s.skipIf (s.keyDownAt (s.getV x))).completed := rfl
  have sknp : exec (.sknp x) s = .next (s.skipIf (!s.keyDownAt (s.getV x))).completed := rfl
  constructor
  · intro hkey
    have hdown : s.keyDownAt (s.getV x) = true := (keyDownAt_iff s _).mpr hkey
    exact ⟨exec_skips skp hdown, exec_does_not_skip sknp (by rw [hdown]; rfl)⟩
  · intro hkey
    have hup : s.keyDownAt (s.getV x) = false := by
      rw [← Bool.not_eq_true, keyDownAt_iff]
      rintro ⟨k, hk, hdown⟩
      rw [hkey k hk] at hdown
      cases hdown
    exact ⟨exec_does_not_skip skp hup, exec_skips sknp (by rw [hup]; rfl)⟩

end Sys2Proof.Machine
end

section
/-! Drawing (spec/46_display.md R230 to R236): DXYN in terms of the touched pixels, and a draw made twice. -/

namespace Sys2Proof.Machine

theorem exec_drw (x y : Reg) (n : Nibble) (s : State) :
    exec (.drw x y n) s = .next ((s.setFb (s.drawSprite x y n).1).setFlag (s.drawSprite x y n).2).completed := rfl

section
variable {s : State} {x y : Reg} {n : Nibble}

/-- A draw inverts the touched pixels (R233). -/
theorem pixel_drawSprite_of_touched {c : Fin 64} {r : Fin 32} (h : s.Touched x y n c r) :
    (s.drawSprite x y n).1.pixel c r = !s.fb.pixel c r := by
  rw [pixel_drawSprite, decide_eq_true ((touched_iff s x y n c r).mp h), Bool.xor_true]

/-- A draw leaves every other pixel alone (R233). -/
theorem pixel_drawSprite_of_not_touched {c : Fin 64} {r : Fin 32} (h : ¬s.Touched x y n c r) :
    (s.drawSprite x y n).1.pixel c r = s.fb.pixel c r := by
  rw [pixel_drawSprite, decide_eq_false (mt (touched_iff s x y n c r).mpr h), Bool.xor_false]

/-- The collision flag says that a touched pixel was lit before the draw (R232). -/
theorem hit_drawSprite_iff : (s.drawSprite x y n).2 = true ↔ ∃ c r, s.Touched x y n c r ∧ s.fb.pixel c r = true := by
  rw [hit_drawSprite, Prod.exists]
  simp only [touched_iff]

/-- What a draw touches depends on the two registers, memory, I and the quirk record only. -/
theorem touched_congr {t : State} (hx : t.getV x = s.getV x) (hy : t.getV y = s.getV y) (hmem : t.mem = s.mem)
    (hi : t.i = s.i) (hq : t.quirks = s.quirks) (c : Fin 64) (r : Fin 32) :
    t.Touched x y n c r ↔ s.Touched x y n c r := by
  rw [touched_iff, touched_iff, hx, hy, hmem, hi, hq]

end

/-- The state a draw completes with (R233). -/
def State.drawn (s : State) (x y : Reg) (n : Nibble) : State :=
  ((s.setFb (s.drawSprite x y n).1).setFlag (s.drawSprite x y n).2).completed

/-- VF after a draw is the collision flag, as 0 or 1. -/
theorem getV_vF_drawn (s : State) (x y : Reg) (n : Nibble) : (s.drawn x y n).getV vF = flagByte (s.drawSprite x y n).2 := by
  rw [State.drawn, State.getV_completed, State.getV_setFlag, if_pos rfl]

/-- Settles O48: the pixels and the flag are those of `State.drawSprite`, and VF is written last. -/
theorem drawSprite : Obligations.DrawSprite := by
  intro x y n s
  refine ⟨s.drawn x y n, exec_drw x y n s, fun c r => pixel_drawSprite_of_touched,
    fun c r => pixel_drawSprite_of_not_touched, ?hit, ?miss, rfl, State.completed_result _, frame_setFb_setFlag s _ _⟩
  case hit =>
    intro hlit
    rw [getV_vF_drawn, hit_drawSprite_iff.mpr hlit]
    rfl
  case miss =>
    intro hdark
    have hmiss : (s.drawSprite x y n).2 = false := by
      rw [← Bool.not_eq_true, hit_drawSprite_iff]
      rintro ⟨c, r, htouched, hlit⟩
      rw [hdark c r htouched] at hlit
      cases hlit
    rw [getV_vF_drawn, hmiss]
    rfl

/-- A draw with x and y other than F leaves what the next draw touches as it was (R236). -/
theorem touched_drawn {s : State} {x y : Reg} (hx : x ≠ vF) (hy : y ≠ vF) (n : Nibble) (c : Fin 64) (r : Fin 32) :
    (s.drawn x y n).Touched x y n c r ↔ s.Touched x y n c r := by
  have hkept (z : Reg) (hz : z ≠ vF) : (s.drawn x y n).getV z = s.getV z :=
    (frame_setFb_setFlag s _ _).regs z (by simpa using hz)
  exact touched_congr (hkept x hx) (hkept y hy) rfl rfl rfl c r

/-- A draw made twice restores every pixel: it inverts the same pixels both times (R236). -/
theorem fb_drawn_drawn {s : State} {x y : Reg} (hx : x ≠ vF) (hy : y ≠ vF) (n : Nibble) :
    ((s.drawn x y n).drawn x y n).fb = s.fb := by
  apply FrameBuffer.ext_pixel
  intro c r
  by_cases h : s.Touched x y n c r
  · have hfirst : (s.drawn x y n).fb.pixel c r = !s.fb.pixel c r := pixel_drawSprite_of_touched h
    have hsecond := pixel_drawSprite_of_touched ((touched_drawn hx hy n c r).mpr h)
    exact hsecond.trans (by rw [hfirst, Bool.not_not])
  · have hfirst : (s.drawn x y n).fb.pixel c r = s.fb.pixel c r := pixel_drawSprite_of_not_touched h
    have hsecond := pixel_drawSprite_of_not_touched (mt (touched_drawn hx hy n c r).mp h)
    exact hsecond.trans hfirst

theorem flagByte_eq_one_iff (f : Bool) : flagByte f = 1 ↔ f = true := by
  cases f <;> decide

/-- The second of two equal draws collides exactly when a touched pixel was unlit before the first, which lit it (C3). -/
theorem hit_second_draw {s : State} {x y : Reg} (hx : x ≠ vF) (hy : y ≠ vF) (n : Nibble) :
    ((s.drawn x y n).drawSprite x y n).2 = true ↔ ∃ c r, s.Touched x y n c r ∧ s.fb.pixel c r = false := by
  rw [hit_drawSprite_iff]
  refine exists_congr fun c => exists_congr fun r => ?_
  rw [touched_drawn hx hy]
  refine and_congr_right fun h => ?_
  have hfirst : (s.drawn x y n).fb.pixel c r = !s.fb.pixel c r := pixel_drawSprite_of_touched h
  rw [hfirst, Bool.not_eq_true']

/-- Settles O49: both draws touch the same pixels, since neither Vx nor Vy is the VF that the first one writes. -/
theorem drawTwiceRestores : Obligations.DrawTwiceRestores := by
  intro x y n s hx hy
  refine ⟨s.drawn x y n, (s.drawn x y n).drawn x y n, exec_drw x y n s, exec_drw x y n _, fb_drawn_drawn hx hy n, ?_⟩
  rw [getV_vF_drawn, flagByte_eq_one_iff, hit_second_draw hx hy]

end Sys2Proof.Machine
end
